-- ==== Sys2Proof/Word.lean ====
section
/-! DEFINITION. The widths the spec gives its words (R60, R69, R7): nothing but type names and the two
halves of a register word. -/

namespace Sys2Proof

/-- One byte on the two-wire bus (R43). -/
abbrev Byte := BitVec 8

/-- A 16-bit register word: configuration, conversion or threshold (R41). -/
abbrev Word := BitVec 16

/-- A 64-bit command word (R60). -/
abbrev Command := BitVec 64

/-- A symbol index: the unsigned 3-bit number that stands for a symbol of one field (R23, R62). -/
abbrev Sym := BitVec 3

/-- `byte0` of a register word, the first one on the wire (R7, R43). -/
def Word.high (w : Word) : Byte := w.extractLsb' 8 8

/-- `byte1` of a register word, the second one on the wire (R7, R43). -/
def Word.low (w : Word) : Byte := w.extractLsb' 0 8

/-- The word two wire bytes form, `b0 << 8 | b1` (R45). -/
def Word.ofBytes (b0 b1 : Byte) : Word := b0 ++ b1

end Sys2Proof
end

