-- ==== Sys2Proof/Syntax.lean ====
section
/-! DEFINITION. The nine configuration fields, a value for each of them, the chip's four registers, and the ONE
inductive of instructions: one constructor per row of spec/opcode_table.json. -/

namespace Sys2Proof

/-- The nine configuration fields, in the field-index order of R61. -/
inductive Field where
  | os     -- operational_status
  | mux    -- input_multiplexer
  | pga    -- gain_mode
  | mode   -- operation_mode
  | dr     -- data_rate
  | cmode  -- comparator_mode
  | cpol   -- comparator_polarity
  | clat   -- comparator_latch
  | cque   -- comparator_queue
deriving DecidableEq, Repr

/-- All fields, index 0 first (R61). -/
def Field.all : List Field := [.os, .mux, .pga, .mode, .dr, .cmode, .cpol, .clat, .cque]

/-- The field index of R61: it selects the `present` bit, the `sym` slot, the `CFG` slot and the `err_field` value. -/
def Field.index : Field → Nat
  | .os => 0 | .mux => 1 | .pga => 2 | .mode => 3 | .dr => 4
  | .cmode => 5 | .cpol => 6 | .clat => 7 | .cque => 8

/-- One value for each of the nine fields. `CFG` (R23), the fields a command gives (R62) and a set of symbols to
encode (R101) all have this shape. -/
structure Slots (α : Type) where
  os : α
  mux : α
  pga : α
  mode : α
  dr : α
  cmode : α
  cpol : α
  clat : α
  cque : α
deriving DecidableEq, Repr

/-- Slot `i` of a nine-slot record. -/
def Slots.get {α : Type} (s : Slots α) : Field → α
  | .os => s.os | .mux => s.mux | .pga => s.pga | .mode => s.mode | .dr => s.dr
  | .cmode => s.cmode | .cpol => s.cpol | .clat => s.clat | .cque => s.cque

/-- The nine-slot record whose slot `i` is `f i`. -/
def Slots.ofFn {α : Type} (f : Field → α) : Slots α :=
  ⟨f .os, f .mux, f .pga, f .mode, f .dr, f .cmode, f .cpol, f .clat, f .cque⟩

/-- The fields a command gives, each with its symbol index: `none` where `present[i]` = 0, in which case `sym[i]` is
don't-care (R62). -/
abbrev Given := Slots (Option Sym)

/-- The chip's four registers (R41). -/
inductive ChipReg where
  | conversion
  | configuration
  | lowThreshold
  | highThreshold
deriving DecidableEq, Repr

/-- The 2-bit pointer value of a register (R41). -/
def ChipReg.pointer : ChipReg → BitVec 2
  | .conversion => 0 | .configuration => 1 | .lowThreshold => 2 | .highThreshold => 3

/-- The register a 2-bit pointer selects (R41). -/
def ChipReg.ofPointer (p : BitVec 2) : ChipReg :=
  match p.toNat with
  | 0 => .conversion
  | 1 => .configuration
  | 2 => .lowThreshold
  | _ => .highThreshold

/-- The commands of the codec block (R64), one constructor per row of the opcode table, with exactly the operands the
"reads" column and R63 give each. -/
inductive Instr where
  /-- ENCODE (R104): encode a full configuration. -/
  | encode (given : Given)
  /-- DECODE (R105): decode a configuration-register word. -/
  | decode (data : Word)
  /-- UPDATE (R106): merge fields onto `CFG`, encode, commit. -/
  | update (given : Given)
  /-- START (R107): encode a one-shot start request. -/
  | start
  /-- BUSY (R108): does this configuration word say the chip is converting. -/
  | busy (data : Word)
  /-- RESET (R109): `CFG` to its defaults, and request the general call. -/
  | reset
  /-- CONV (R143): decode and scale a conversion word, with the gain given or that of `CFG`. -/
  | conv (gain : Option Sym) (data : Word)
  /-- SETTH (R144): encode a threshold value for the register `reg`. -/
  | setth (reg : ChipReg) (data : Word)
  /-- GETTH (R145): decode a threshold word read from the register `reg`. -/
  | getth (reg : ChipReg) (data : Word)
deriving DecidableEq, Repr

end Sys2Proof
end

