-- ==== Sys2Proof/Config.lean ====
section
/-! DEFINITION. What a build of the codec block fixes (R6): the chip variant, the data-rate table, the host's poll
bound and sample rates; and the free values, constants with no body that nothing in Lean can evaluate. -/

namespace Sys2Proof

/-- The chip variant (R2, R21). -/
inductive Profile where
  | base
  | extended
  | extendedMux
deriving DecidableEq, Repr

/-- Which data-rate code table the build uses (R6, R77). -/
inductive DrTable where
  | source
  | datasheet
deriving DecidableEq, Repr

/-- `DR_SPS`: the sample rate of each data-rate symbol, in samples per second, for the host's sleep only (R6, R77). Only
`sps1600` = 1600 is the source's. The other defaults are those R77 lists, PRESUMED there (log entry 4). -/
structure Rates where
  drCode0 : Nat := 128
  drCode1 : Nat := 250
  drCode2 : Nat := 490
  drCode3 : Nat := 920
  sps1600 : Nat := 1600
  drCode5 : Nat := 2400
  drMax   : Nat := 3300
deriving DecidableEq, Repr

/-- The implementation parameters of R6. Each is fixed for a whole run. -/
structure Build where
  /-- `PROFILE`. -/
  profile  : Profile
  /-- `DR_TABLE`; `DR_SOURCE` is the reference (R6). -/
  drTable  : DrTable := .source
  /-- `MAX_POLLS`; `none` is the default: no bound (R6, R178). -/
  maxPolls : Option Nat := none
  /-- `DR_SPS`. -/
  drSps    : Rates := {}
deriving DecidableEq, Repr

/-- `MAX_POLLS` is `none` or a positive integer (R6). -/
abbrev Build.wf (b : Build) : Prop := ∀ n, b.maxPolls = some n → 0 < n

/-- The build `State.reset` starts with. DESIGN CHOICE (log entry 2): R6 makes `PROFILE` an argument and names no
default; the variant with every field is taken. Statements about power-on range over every build instead. -/
def Config.build : Build where
  profile := .extendedMux

/-- FREE VALUE (log entry 5): the code a symbol index with no code would encode to. No rule gives one (R73-R81), and R24
and R103 keep such an index out of every reachable encoding. First argument: the field index. -/
opaque Config.freeCode : Nat → Sym → BitVec 3

/-- FREE VALUE (log entry 5): the multiplier of a gain index with no gain factor (R141 lists six). -/
opaque Config.freeMult : Sym → Nat

/-- FREE VALUE (log entry 8): what each register of the chip holds when the host's `n`-th undetermined bus operation
reaches it (R31, R218). Second argument: the register's pointer. -/
opaque Config.chipWord : Nat → BitVec 2 → BitVec 16

/-- FREE VALUE (log entry 8): whether the `n`-th undetermined transport operation succeeds (R44, R45). -/
opaque Config.transportOk : Nat → Bool

end Sys2Proof
end

