-- ==== Sys2Proof/WellFormed.lean ====
section
/-! DEFINITION. Which instructions the spec's own assembler syntax can write (R88): every field given has a symbol with a
name (R73-R81), and a threshold command names a threshold register. An ill-formed instruction still has a command word and a
meaning: the error R192 or R193 gives it. -/

namespace Sys2Proof

/-- `sym` is the index of a symbol that R73-R81 name for `f`. `dr_code5` has a name under both data-rate tables, although
`DR_SOURCE` does not accept it (R77). -/
def Field.named (f : Field) (sym : Sym) : Bool :=
  match f with
  | .os => sym.toNat < 3
  | .mux => true
  | .pga => sym.toNat < 6
  | .mode | .cmode | .cpol | .clat => sym.toNat < 2
  | .dr => sym.toNat < 7
  | .cque => sym.toNat < 4

/-- A field that is given has a named symbol. -/
def Field.namedIfGiven (f : Field) : Option Sym → Bool
  | none => true
  | some sym => f.named sym

/-- Every field given has a named symbol. -/
def Slots.wellFormed (given : Given) : Bool :=
  Field.all.all fun f => f.namedIfGiven (given.get f)

/-- One of the two threshold registers (R41, R88). -/
def ChipReg.isThreshold : ChipReg → Bool
  | .lowThreshold | .highThreshold => true
  | .conversion | .configuration => false

/-- The instructions R88's syntax can write. -/
def Instr.wellFormed : Instr → Bool
  | .encode given => given.wellFormed
  | .decode _ => true
  | .update given => given.wellFormed
  | .start => true
  | .busy _ => true
  | .reset => true
  | .conv gain _ => Field.pga.namedIfGiven gain
  | .setth reg _ => reg.isThreshold
  | .getth reg _ => reg.isThreshold

end Sys2Proof
end

