-- ==== Sys2Proof/Decode.lean ====
section
/-! DEFINITION. The command word (R60-R67): its fields, the decoder, which refuses by name, and the encoder, which puts 0
into every operand a command does not write (R88). -/

namespace Sys2Proof

/-! ## The fields of a command word (R60, R61) -/

/-- `op`, bits 3:0. -/
def opField (w : Command) : BitVec 4 := w.extractLsb' 0 4

/-- `ptr`, bits 5:4. -/
def ptrField (w : Command) : BitVec 2 := w.extractLsb' 4 2

/-- `present[i]`, bit `6 + i`. -/
def presentField (w : Command) (f : Field) : Bool := w.getLsbD (6 + f.index)

/-- `sym[i]`, bits `16 + 3i + 2 : 16 + 3i`. -/
def symField (w : Command) (f : Field) : Sym := w.extractLsb' (16 + 3 * f.index) 3

/-- `data16`, bits 63:48. -/
def dataField (w : Command) : Word := w.extractLsb' 48 16

/-- The bits that must be 0: `rsv0` (bit 15) and `rsv1` (bits 47:43) (R66). -/
def reservedMask : Command := 0x0000F80000008000

/-- The operand of one field: its symbol index where `present[i]` = 1 (R62). -/
def givenField (w : Command) (f : Field) : Option Sym :=
  if presentField w f then some (symField w f) else none

/-- The operands `present` and `sym` together. -/
def givenFields (w : Command) : Given := Slots.ofFn (givenField w)

/-! ## The decoder -/

/-- Why a model refuses a command word (R205). -/
inductive Unassigned where
  /-- `op` is 0x0 or 0xA-0xF (R65). -/
  | reservedOp (op : BitVec 4)
  /-- Bit 15 or one of bits 47:43 is set (R66). -/
  | reservedBits
deriving DecidableEq, Repr

/-- What the decoder makes of a command word. -/
inductive Decoded where
  | instr (i : Instr)
  | refused (why : Unassigned)
deriving DecidableEq, Repr

/-- The instruction `op` selects, its operands taken from `w` (R64, R67); reserved bits are not looked at. -/
def decodeOp (w : Command) : Decoded :=
  match (opField w).toNat with
  | 1 => .instr (.encode (givenFields w))
  | 2 => .instr (.decode (dataField w))
  | 3 => .instr (.update (givenFields w))
  | 4 => .instr .start
  | 5 => .instr (.busy (dataField w))
  | 6 => .instr .reset
  | 7 => .instr (.conv (givenField w .pga) (dataField w))
  | 8 => .instr (.setth (ChipReg.ofPointer (ptrField w)) (dataField w))
  | 9 => .instr (.getth (ChipReg.ofPointer (ptrField w)) (dataField w))
  | _ => .refused (.reservedOp (opField w))

/-- The decoder of a model: it refuses a reserved operation and a reserved bit that is set (R65, R66, R205). -/
def decode (w : Command) : Decoded :=
  match decodeOp w with
  | .refused why => .refused why
  | .instr i => if w &&& reservedMask = 0 then .instr i else .refused .reservedBits

/-! ## The encoder -/

/-- The value `v` placed at bit `lo` of a command word. -/
def place {n : Nat} (v : BitVec n) (lo : Nat) : Command := v.setWidth 64 <<< lo

/-- The `present` bit and the `sym` slot of one field; an operand not written assembles to 0 (R88). -/
def placeField (f : Field) : Option Sym → Command
  | none => 0
  | some sym => place (1 : BitVec 1) (6 + f.index) ||| place sym (16 + 3 * f.index)

/-- The `present` and `sym` operands of a command (R60). -/
def placeGiven (given : Given) : Command :=
  Field.all.foldr (fun f w => placeField f (given.get f) ||| w) 0

/-- The operation number of R64. -/
def Instr.op : Instr → BitVec 4
  | .encode _ => 1
  | .decode _ => 2
  | .update _ => 3
  | .start => 4
  | .busy _ => 5
  | .reset => 6
  | .conv _ _ => 7
  | .setth _ _ => 8
  | .getth _ _ => 9

/-- The operands of a command in their places (R60-R63). -/
def Instr.operands : Instr → Command
  | .encode given => placeGiven given
  | .decode data => place data 48
  | .update given => placeGiven given
  | .start => 0
  | .busy data => place data 48
  | .reset => 0
  | .conv gain data => placeField .pga gain ||| place data 48
  | .setth reg data => place reg.pointer 4 ||| place data 48
  | .getth reg data => place reg.pointer 4 ||| place data 48

/-- The command word of an instruction (R60, R64, R88). -/
def encode (i : Instr) : Command := place i.op 0 ||| i.operands

/-! ## The opcode table's words -/

/-- The instruction the decoder reads from the word `w` of the opcode table. A command is exactly one 64-bit word (R87), so
its bits above the `nbits` the table lists are those of `w` itself, and no larger number is a command. -/
def decodeTableWord (nbits w : Nat) : Option Instr :=
  if nbits ≤ 64 ∧ w < 2 ^ nbits then
    match decode (BitVec.ofNat 64 w) with
    | .instr i => some i
    | .refused _ => none
  else none

end Sys2Proof
end

