-- ==== Sys2Proof/Machine/State.lean ====
section
/-! DEFINITION. Everything the spec gives the machine, as plain data: the codec block's one register `CFG`, its command
port and its response, the host's session, the chip and the transport; and the state after power-on reset. -/

namespace Sys2Proof.Machine

/-! ## The response record (R68) -/

/-- The error taxonomy of R191. Codes 5-7 are never produced and are left out, as 93 I3 allows. -/
inductive Status where
  | ok
  | invalidFieldValue
  | unsupportedOperation
  | outOfRange
  | transportError
deriving DecidableEq, Repr

/-- The number of a status (R191). -/
def Status.code : Status → BitVec 3
  | .ok => 0
  | .invalidFieldValue => 1
  | .unsupportedOperation => 2
  | .outOfRange => 3
  | .transportError => 4

/-- The response record of R68. A field an operation does not set has the default written here (R9). -/
structure Response where
  status    : Status := .ok
  errField  : BitVec 4 := 0xF
  wordOut   : Word := 0
  wrValid   : Bool := false
  wrPtr     : BitVec 2 := 0
  gcReq     : Bool := false
  symValid  : BitVec 9 := 0
  symOut    : BitVec 27 := 0
  busy      : Bool := false
  raw12     : BitVec 12 := 0
  scaledQ3  : BitVec 17 := 0
  thValue   : BitVec 12 := 0
deriving DecidableEq, Repr

/-! ## The chip and the transport (R31, R41, R44-R46) -/

/-- The contents of the chip's four registers (R41). -/
structure ChipRegs where
  conversion    : Word
  configuration : Word
  lowThreshold  : Word
  highThreshold : Word
deriving DecidableEq, Repr

/-- The chip: an agent of its own, whose register contents are draws (R31, R170). `atDefaults` says that a general call
reached it and no bus operation has followed, so that its configuration register decodes to the defaults (R49), OS excepted
where a conversion may be in flight (R223). Whether a
conversion is in flight is read from bit 15 of `configuration`, the only place it shows (R31). -/
structure Chip where
  regs       : ChipRegs
  atDefaults : Bool
deriving DecidableEq, Repr

/-- What the environment decides at one bus operation (93 I11-I17): whether the transport delivers it, and what the
chip's registers hold by then. -/
structure Draw where
  ok   : Bool
  regs : ChipRegs
deriving DecidableEq, Repr

/-- What can be seen of the host: its bus operations (R44-R46) and its poll sleeps (R178). -/
inductive Event where
  /-- `WriteReg(ptr, [b0, b1])` and whether it was delivered. -/
  | wrote (ptr : Byte) (b0 b1 : Byte) (ok : Bool)
  /-- `ReadReg(ptr, 2)` and the bytes it gave, `none` for a `TransportError`. -/
  | read (ptr : Byte) (answer : Option (Byte × Byte))
  /-- `GeneralCall()`: the address and command byte sent (R86), and whether they were delivered. -/
  | generalCall (address command : Byte) (ok : Bool)
  /-- A sleep of `1 / rate` seconds between two polls; `none` where `CFG[4]` holds no data-rate symbol. -/
  | slept (rate : Option Nat)
deriving DecidableEq, Repr

/-! ## The host's session (R170-R181) -/

/-- The two registers the threshold calls take (R176). -/
inductive Threshold where
  | low
  | high
deriving DecidableEq, Repr

/-- The register a threshold call names. -/
def Threshold.reg : Threshold → ChipReg
  | .low => .lowThreshold
  | .high => .highThreshold

/-- What a caller can ask of the host: the sequences of 45_host_sequences.md, one command at a time in any order (R181),
and the transport primitives (R44-R46). -/
inductive Call where
  /-- Issue one command and return its response. A write it requests is dropped, which R181 allows; a general call it
  requests is made, which R181 demands, and the caller of that RESET then gets the call's outcome and not the response
  (DESIGN CHOICE, log entry 15); a BUSY is refused, since its word is not one read live (R181, R215), and is so
  before its reserved bits are looked at (DESIGN CHOICE, log entry 23). -/
  | command (w : Command)
  /-- Configuration update (R171). -/
  | updateConfig (given : Given)
  /-- `request_one_shot_conversion()` (R172). -/
  | requestOneShot
  /-- `busy?()` (R173). -/
  | isBusy
  /-- `general_reset()` (R174). -/
  | generalReset
  /-- Conversion read (R175). -/
  | conversionRead
  /-- `set_threshold(reg, value)` (R176); values beyond 16 bits cannot be expressed (D27). -/
  | setThreshold (reg : Threshold) (value : Word)
  /-- `get_threshold(reg)` (R176). -/
  | getThreshold (reg : Threshold)
  /-- Configuration read (R177). -/
  | configRead
  /-- `one_shot_conversion()` (R178); `deadline` is the caller's own (R180): it abandons the loop after the poll of that number,
  the first being number 1, so that a deadline of 0 is never reached (log entry 17). -/
  | oneShot (deadline : Option Nat)
  /-- A transport write of some bytes (R44, R47). R216 forbids software two bytes that are not one response's `word_out`, and
  names no treatment; here any two bytes are written as R44 says (DESIGN CHOICE, log entry 26). -/
  | writeReg (ptr : Byte) (bytes : List Byte)
  /-- A transport read of some length (R45, R48). -/
  | readReg (ptr : Byte) (length : Nat)
  /-- A general call (R46). -/
  | generalCall
deriving DecidableEq, Repr

/-- Where the host's running sequence stands. The phases named `await` wait for the response to a command just issued. -/
inductive Phase where
  /-- No sequence is running. -/
  | idle
  /-- R171, R172, R176: the response's word is to be written to `reg`. -/
  | awaitWrite (reg : ChipReg)
  /-- R173: the response says whether the chip is busy. -/
  | awaitBusy
  /-- R174: the response asks for the general call. -/
  | awaitReset
  /-- R175, R178: the response is the reading. -/
  | awaitReading
  /-- R176: the response is the threshold value. -/
  | awaitThreshold
  /-- R177: the response is the decoded configuration. -/
  | awaitSymbols
  /-- R181: the response to a single command is the caller's; where it asks for the general call (RESET), that is made
  instead, and the caller gets its outcome (DESIGN CHOICE, log entry 15). -/
  | awaitCommand
  /-- R178: the start word is to be written. -/
  | awaitShotStart (deadline : Option Nat)
  /-- R178: the next poll is due; `polls` were made. -/
  | poll (polls : Nat) (deadline : Option Nat)
  /-- R178: the response to poll number `polls`. -/
  | awaitPoll (polls : Nat) (deadline : Option Nat)
  /-- R178: the conversion is to be read. -/
  | shotRead
deriving DecidableEq, Repr

/-- What the host returns to its caller. -/
inductive CallResult where
  /-- The sequence ended and returns nothing. -/
  | done
  /-- It ended with an error of R191, `TransportError` among them (R171, R176, R179). -/
  | failed (why : Status)
  /-- R173. -/
  | busy (b : Bool)
  /-- R175: `raw12`, and `scaled_q3` in units of 1/8 mV. -/
  | reading (raw12 : BitVec 12) (scaledQ3 : BitVec 17)
  /-- R176. -/
  | threshold (value : BitVec 12)
  /-- R177: `sym_valid` and `sym_out`. -/
  | symbols (valid : BitVec 9) (out : BitVec 27)
  /-- The response to a single command other than RESET (R181; log entry 15). -/
  | response (r : Response)
  /-- A register word read by the transport primitive (R45). -/
  | word (w : Word)
  /-- R178: the poll bound `MAX_POLLS` was reached. -/
  | timeout
  /-- R180: the caller's own deadline passed. -/
  | abandoned
deriving DecidableEq, Repr

/-- The host's session: the calls it has still to serve, oldest first, the sequence it runs, and what the last one that
ended returned. -/
structure Session where
  calls  : List Call
  phase  : Phase
  result : Option CallResult
deriving DecidableEq, Repr

/-! ## The whole state -/

/-- The state. `cfg` is the codec block's only architectural state (R20); the other fields are its parameters, its command
port, its outputs, and the two agents around it (R170). -/
structure State where
  /-- The parameters of the run (R6). No step writes them (R21). -/
  build    : Build
  /-- `CFG`, the configuration state register (R23). -/
  cfg      : Slots Sym
  /-- The command port: the command words issued and not yet taken, oldest first (R10, R112). -/
  port     : List Command
  /-- The response record of the last command, an output no command reads (R30, R68); `none` before the first (R210). -/
  response : Option Response
  /-- The host (R170). -/
  session  : Session
  /-- The chip (R31, R170). -/
  chip     : Chip
  /-- What the environment is given to decide at the next bus operations, oldest first. -/
  draws    : List Draw
  /-- How many bus operations were decided by a free value instead, `draws` being empty. -/
  drawn    : Nat
  /-- The events so far, newest first. -/
  trace    : List Event
deriving DecidableEq, Repr

/-- `DEFAULTS` (R27). -/
def defaults : Slots Sym where
  os := 0
  mux := 0
  pga := 2
  mode := 1
  dr := 4
  cmode := 0
  cpol := 0
  clat := 0
  cque := 3

/-- The state after power-on reset of a given build: `CFG` holds its defaults, there is no response and no bus traffic
(R28, R210, R212). The chip's registers are not the codec block's and R212 leaves them open: 0 here, DESIGN CHOICE (log
entry 7), and no read of a register ever gives them. -/
def State.powerOn (b : Build) : State where
  build := b
  cfg := defaults
  port := []
  response := none
  session := { calls := [], phase := .idle, result := none }
  chip := { regs := { conversion := 0, configuration := 0, lowThreshold := 0, highThreshold := 0 }, atDefaults := false }
  draws := []
  drawn := 0
  trace := []

/-- The machine right after reset, in the build of `Config.build`. -/
def State.reset : State := State.powerOn Config.build

/-! ## Why a step can stop -/

/-- The faults. The codec block has none (93 Part 1). -/
inductive Fault where
  /-- Raised by the host's step: a sequence waits for a response that no command was issued for. Safe: no state the machine
  reaches from power-on is like this, and R170-R181 give such a state no step. -/
  | noResponse
deriving DecidableEq, Repr

/-- The refusals of R205, those of host moves the spec says there are none of, and the one of an instruction without a
meaning. -/
inductive Refusal where
  /-- Raised by an arm of `exec` whose instruction has no meaning yet. Safe. -/
  | notModelled (mnemonic : String)
  /-- Raised by a step on a command word whose `op` is reserved (R65). Safe: a proof cannot rely on it. -/
  | reservedOp (op : BitVec 4)
  /-- Raised by a step on a command word with a reserved bit set (R66). Safe. -/
  | reservedBits
  /-- Raised by the host's step on a transport write of one byte (R47, 93 I4). Safe. -/
  | oneByteWrite
  /-- Raised by the host's step on a register access of any other length than 2 (R48, 93 I5). Safe. -/
  | accessLength
  /-- Raised by the host's step on a pointer byte above 0x03 (R41, 93 I6). Safe. -/
  | noSuchPointer
  /-- Raised by the host's step on a threshold pointer with a `base` chip, an access the host never makes (R42). Safe. -/
  | thresholdOnBase
  /-- Raised by the host's step on a call that would pass BUSY a word of the caller's, which no live read gave (R181, R215,
  93 I20). Safe. -/
  | busyWordNotLive
deriving DecidableEq, Repr

end Sys2Proof.Machine
end

