-- ==== Sys2Proof/Machine/Operands.lean ====
section
/-! DEFINITION. The operand forms: the BitField Table (R69), the symbol tables (R73-R82), the word encoder and decoder
(R100-R102), and the numbers a register word holds (R84, R85, R140-R142). -/

namespace Sys2Proof.Machine

/-! ## The BitField Table (R69) -/

/-- The place of a field in the configuration register. -/
structure Descriptor where
  byteIndex : Nat
  bitOffset : Nat
  bitWidth  : Nat
deriving DecidableEq, Repr

/-- The descriptors of R69. -/
def descriptor : Field → Descriptor
  | .os    => ⟨0, 7, 1⟩
  | .mux   => ⟨0, 4, 3⟩
  | .pga   => ⟨0, 1, 3⟩
  | .mode  => ⟨0, 0, 1⟩
  | .dr    => ⟨1, 5, 3⟩
  | .cmode => ⟨1, 4, 1⟩
  | .cpol  => ⟨1, 3, 1⟩
  | .clat  => ⟨1, 2, 1⟩
  | .cque  => ⟨1, 0, 2⟩

/-- `POS(i) = 8*(1 - byte_index) + bit_offset` (R69). -/
def pos (f : Field) : Nat := 8 * (1 - (descriptor f).byteIndex) + (descriptor f).bitOffset

/-- The width of a field's code (R69). -/
def width (f : Field) : Nat := (descriptor f).bitWidth

/-- `FIELDS(PROFILE)` (R22). -/
def has : Profile → Field → Bool
  | _, .os | _, .mode | _, .dr => true
  | .base, _ => false
  | .extended, .mux => false
  | .extended, _ => true
  | .extendedMux, _ => true

/-- The `err_field` value of a field: its index (R197). -/
def errField (f : Field) : BitVec 4 := BitVec.ofNat 4 f.index

/-! ## The symbol tables (R73-R82) -/

/-- `LEGAL(i)` (R82). -/
def legal (t : DrTable) (f : Field) (sym : Sym) : Bool :=
  match f with
  | .os => sym.toNat ≤ 2
  | .mux => true
  | .pga => sym.toNat ≤ 5
  | .mode | .cmode | .cpol | .clat => sym.toNat ≤ 1
  | .dr =>
    match t with
    | .source => sym.toNat ≤ 4 || sym.toNat = 6
    | .datasheet => sym.toNat ≤ 6
  | .cque => sym.toNat ≤ 3

/-- The ENC columns of R73-R81, for a legal symbol index. -/
def canonicalCode (t : DrTable) (f : Field) (sym : Sym) : BitVec 3 :=
  match f with
  | .os => if sym.toNat = 2 then 1 else 0
  | .dr =>
    match t with
    | .source => if sym.toNat = 6 then 5 else sym
    | .datasheet => sym
  | .mux | .pga | .mode | .cmode | .cpol | .clat | .cque => sym

/-- `ENC_i` (R73-R81). An index that is not legal has no code, so its code is a free value of the field's width (log
entry 5). -/
def encCode (t : DrTable) (f : Field) (sym : Sym) : BitVec 3 :=
  if legal t f sym then canonicalCode t f sym
  else Config.freeCode f.index sym &&& BitVec.ofNat 3 (2 ^ width f - 1)

/-- `DEC_i` (R73-R81), total over the codes of the field's width (R83). -/
def decCode (t : DrTable) (f : Field) (c : BitVec 3) : Sym :=
  match f with
  | .os => if c.toNat = 1 then 0 else 1
  | .pga => if c.toNat ≤ 5 then c else 5
  | .dr =>
    match t with
    | .source => if c.toNat ≤ 4 then c else 6
    | .datasheet => if c.toNat ≤ 6 then c else 6
  | .mux | .mode | .cmode | .cpol | .clat | .cque => c

/-! ## The word encoder and decoder (R100-R102) -/

/-- `byte(i, w)` (R100). -/
def byteOf (f : Field) (w : Word) : Byte := if (descriptor f).byteIndex = 0 then w.high else w.low

/-- `CODE(i, w) = (byte(i, w) >> bit_offset) & ((1 << bit_width) - 1)` (R100). -/
def code (f : Field) (w : Word) : BitVec 3 :=
  ((byteOf f w >>> (descriptor f).bitOffset) &&& BitVec.ofNat 8 (2 ^ width f - 1)).setWidth 3

/-- `zext_16(ENC_i(m[i])) << POS(i)`, for a field of the profile (R101). -/
def codeInPlace (b : Build) (m : Slots Sym) (f : Field) : Word :=
  if has b.profile f then (encCode b.drTable f (m.get f)).setWidth 16 <<< pos f else 0

/-- `ENC_WORD(P, m)` (R101): zero, and each field of the profile ORed in. -/
def encWord (b : Build) (m : Slots Sym) : Word :=
  Field.all.foldr (fun f w => codeInPlace b m f ||| w) 0

/-- `DEC_WORD(P, w)` (R102): a symbol for exactly the fields of the profile. -/
def decWord (b : Build) (w : Word) : Given :=
  Slots.ofFn fun f => if has b.profile f then some (decCode b.drTable f (code f w)) else none

/-- `OWNED(P)` (R72): the union of the word bits of the profile's fields. -/
def owned (p : Profile) : Word :=
  Field.all.foldr (fun f w => (if has p f then BitVec.ofNat 16 ((2 ^ width f - 1) * 2 ^ pos f) else 0) ||| w) 0

/-! ## The symbol operands of the commands -/

/-- The symbols ENCODE encodes: OS absent is `not_converting` (R104); an absent field of the profile was refused, and one
outside it is not read. -/
def encodeSymbols (given : Given) : Slots Sym := Slots.ofFn fun f => (given.get f).getD 0

/-- The symbols UPDATE encodes: the ones given, else those of `CFG`; OS is never taken from `CFG` (R106). -/
def mergeSymbols (cfg : Slots Sym) (given : Given) : Slots Sym :=
  Slots.ofFn fun f => (given.get f).getD (if f = .os then 0 else cfg.get f)

/-- The symbols START encodes: `start_one_shot`, and `CFG` for every other field (R107). -/
def startSymbols (cfg : Slots Sym) : Slots Sym := { cfg with os := 2 }

/-- `sym_valid`: bit `i` set where slot `i` is reported (R68). -/
def packValid (s : Given) : BitVec 9 :=
  Field.all.foldr (fun f v => (if (s.get f).isSome then (1 : BitVec 9) <<< f.index else 0) ||| v) 0

/-- `sym_out`: slot `i` in bits `3i+2 : 3i`, 0 where nothing is reported (R68). -/
def packSymbols (s : Given) : BitVec 27 :=
  Field.all.foldr (fun f v => ((s.get f).getD 0).setWidth 27 <<< (3 * f.index) ||| v) 0

/-! ## Samples, gains and thresholds (R84, R85, R140-R142) -/

/-- `RAW12(v)` (R140): 0xFFF0 is -2048; any other word is its upper 12 bits, sign-extended. -/
def rawSample (v : Word) : Int :=
  if v = 0xFFF0 then -2048 else (v.extractLsb' 4 12).toInt

/-- `MULT` of a gain symbol (R141). An index with no gain factor has a free multiplier (log entry 5). -/
def mult (gain : Sym) : Nat :=
  match gain.toNat with
  | 0 => 24
  | 1 => 16
  | 2 => 8
  | 3 => 4
  | 4 => 2
  | 5 => 1
  | _ => Config.freeMult gain

/-- `scaled_q3 = raw * MULT`, in 17-bit two's complement (R142). -/
def scaled (raw : Int) (m : Nat) : BitVec 17 := BitVec.ofInt 17 (raw * m)

/-- `((t & 0xFFF) << 4)[15:0]` (R85, R144). -/
def thresholdWord (t : Int) : Word := (BitVec.ofInt 12 t).setWidth 16 <<< 4

/-- `DR_SPS` of a data-rate symbol (R77); index 7 is no symbol and has no rate. -/
def sampleRate (r : Rates) (sym : Sym) : Option Nat :=
  match sym.toNat with
  | 0 => some r.drCode0
  | 1 => some r.drCode1
  | 2 => some r.drCode2
  | 3 => some r.drCode3
  | 4 => some r.sps1600
  | 5 => some r.drCode5
  | 6 => some r.drMax
  | _ => none

end Sys2Proof.Machine
end

