-- ==== Sys2Proof/Machine/Flags.lean ====
section
/-! DEFINITION. The checks that decide a response's `status` and `err_field`, in the order of R196. The codec block has no
condition flags (R30); these two fields are the nearest thing to them. -/

namespace Sys2Proof.Machine

/-- An error: its code and the field it concerns, 0xF where it concerns none (R197). -/
structure Problem where
  status   : Status
  errField : BitVec 4
deriving DecidableEq, Repr

/-- Pass 1 of GATE (R103): the first field given that the profile lacks. -/
def capabilityProblem (b : Build) (given : Given) : Option Problem :=
  (Field.all.find? fun f => (given.get f).isSome && !has b.profile f).map
    fun f => ⟨.unsupportedOperation, errField f⟩

/-- Pass 2 of GATE (R103): the first field given with an index outside `LEGAL(i)`. -/
def domainProblem (b : Build) (given : Given) : Option Problem :=
  (Field.all.find? fun f => (given.get f).any fun sym => !legal b.drTable f sym).map
    fun f => ⟨.invalidFieldValue, errField f⟩

/-- `GATE(present, sym)` (R103). -/
def gate (b : Build) (given : Given) : Option Problem :=
  match capabilityProblem b given with
  | some p => some p
  | none => domainProblem b given

/-- The first field of the profile, OS apart, that ENCODE requires and is not given (R104). -/
def absentProblem (b : Build) (given : Given) : Option Problem :=
  (Field.all.find? fun f => f != .os && has b.profile f && (given.get f).isNone).map
    fun f => ⟨.invalidFieldValue, errField f⟩

/-- The checks of ENCODE (R104). -/
def encodeProblem (b : Build) (given : Given) : Option Problem :=
  match gate b given with
  | some p => some p
  | none => absentProblem b given

/-- The checks of CONV on the gain it may give (R143). -/
def gainProblem (b : Build) : Option Sym → Option Problem
  | none => none
  | some sym =>
    if !has b.profile .pga then some ⟨.unsupportedOperation, errField .pga⟩
    else if !legal b.drTable .pga sym then some ⟨.invalidFieldValue, errField .pga⟩
    else none

/-- The first two checks of SETTH and GETTH: the profile, then the pointer (R144, R145). -/
def registerProblem (b : Build) (reg : ChipReg) : Option Problem :=
  if b.profile = .base then some ⟨.unsupportedOperation, 0xF⟩
  else if !reg.isThreshold then some ⟨.unsupportedOperation, 0xF⟩
  else none

/-- The checks of SETTH (R144, R194). -/
def thresholdProblem (b : Build) (reg : ChipReg) (t : Int) : Option Problem :=
  match registerProblem b reg with
  | some p => some p
  | none => if t < -2048 ∨ 2047 < t then some ⟨.outOfRange, 0xF⟩ else none

end Sys2Proof.Machine
end

