-- ==== Sys2Proof/Machine/Ops.lean ====
section
/-! DEFINITION. The operations over State that every meaning is written with: answering a command, ending it with an error,
writing `CFG`, and issuing a command. The codec block has no memory to load or store (R40) and no trap to take or to return
from (R190): an error ends in a response, which is what `raise` does. -/

namespace Sys2Proof.Machine

/-- `respond(...)` (R9): the command's one response record (R10). -/
def State.respond (s : State) (r : Response) : State := { s with response := some r }

/-- `raise E(f)` (R9): the command ends with a status and an error field, and writes no state (R198). -/
def State.raise (s : State) (p : Problem) : State :=
  s.respond { status := p.status, errField := p.errField }

/-- The commit of UPDATE (R106): the slots of the profile's fields, OS apart. -/
def State.commit (s : State) (m : Slots Sym) : State :=
  { s with cfg := Slots.ofFn fun f => if f ≠ .os ∧ has s.build.profile f then m.get f else s.cfg.get f }

/-- `CFG[i] <- DEFAULTS[i]` for every slot (R109). -/
def State.restoreDefaults (s : State) : State := { s with cfg := defaults }

/-- The host issues one command and waits for its response (R181). -/
def State.issue (s : State) (w : Command) : State := { s with port := [w], response := none }

/-- The codec block takes the command word at the head of its port (R10). -/
def fetch (s : State) : Option (Command × State) :=
  match s.port with
  | [] => none
  | w :: rest => some (w, { s with port := rest })

/-- The refusal of a command word the decoder does not assign (R205). -/
def refusalOf : Unassigned → Refusal
  | .reservedOp op => .reservedOp op
  | .reservedBits => .reservedBits

end Sys2Proof.Machine
end

