-- ==== Sys2Proof/Machine/Codec.lean ====
section
/-! DEFINITION. The configuration codec: ENCODE, DECODE, UPDATE, START, BUSY and RESET (R104-R109). -/

namespace Sys2Proof.Machine

/-- ENCODE (R104): the word of a full configuration, with no write requested and no state written. -/
def execEncode (given : Given) (s : State) : Host.Outcome State Fault Refusal :=
  match encodeProblem s.build given with
  | some p => .next (s.raise p)
  | none => .next (s.respond { wordOut := encWord s.build (encodeSymbols given) })

/-- DECODE (R105): the symbols of a configuration word. It never fails and does not load `CFG` (R29). -/
def execDecode (data : Word) (s : State) : Host.Outcome State Fault Refusal :=
  .next (s.respond { symValid := packValid (decWord s.build data), symOut := packSymbols (decWord s.build data) })

/-- UPDATE (R106): merge, encode, commit, and request the write of the configuration register. -/
def execUpdate (given : Given) (s : State) : Host.Outcome State Fault Refusal :=
  match gate s.build given with
  | some p => .next (s.raise p)
  | none =>
    .next ((s.commit (mergeSymbols s.cfg given)).respond
      { wordOut := encWord s.build (mergeSymbols s.cfg given), wrValid := true
        wrPtr := ChipReg.configuration.pointer })

/-- START (R107): request the write of the word that starts a one-shot conversion; `CFG` stays. -/
def execStart (s : State) : Host.Outcome State Fault Refusal :=
  .next (s.respond
    { wordOut := encWord s.build (startSymbols s.cfg), wrValid := true
      wrPtr := ChipReg.configuration.pointer })

/-- BUSY (R108): whether OS decodes to `converting` (index 1). Only bit 15 of the word is read. -/
def execBusy (data : Word) (s : State) : Host.Outcome State Fault Refusal :=
  .next (s.respond { busy := decCode s.build.drTable .os (code .os data) = 1 })

/-- RESET (R109): `CFG` to its defaults, and request the general call. -/
def execReset (s : State) : Host.Outcome State Fault Refusal :=
  .next (s.restoreDefaults.respond { gcReq := true })

end Sys2Proof.Machine
end

