-- ==== Sys2Proof/Machine/Scaler.lean ====
section
/-! DEFINITION. The sample scaler and the threshold codec: CONV, SETTH and GETTH (R143-R145). -/

namespace Sys2Proof.Machine

/-- The multiplier of CONV (R143): 8 on `base`, else that of the gain given, else that of `CFG[2]`. -/
def convMult (b : Build) (cfg : Slots Sym) (gain : Option Sym) : Nat :=
  if has b.profile .pga then mult (gain.getD cfg.pga) else 8

/-- CONV (R143): the sample and its scaled value. -/
def execConv (gain : Option Sym) (data : Word) (s : State) : Host.Outcome State Fault Refusal :=
  match gainProblem s.build gain with
  | some p => .next (s.raise p)
  | none =>
    .next (s.respond
      { raw12 := BitVec.ofInt 12 (rawSample data)
        scaledQ3 := scaled (rawSample data) (convMult s.build s.cfg gain) })

/-- SETTH (R144): the threshold word of a value in range, and the request to write it. -/
def execSetth (reg : ChipReg) (data : Word) (s : State) : Host.Outcome State Fault Refusal :=
  match thresholdProblem s.build reg data.toInt with
  | some p => .next (s.raise p)
  | none =>
    .next (s.respond { wordOut := thresholdWord data.toInt, wrValid := true, wrPtr := reg.pointer })

/-- GETTH (R145): `sext_12(data16[15:4])`, with no special case for 0xFFF0. -/
def execGetth (reg : ChipReg) (data : Word) (s : State) : Host.Outcome State Fault Refusal :=
  match registerProblem s.build reg with
  | some p => .next (s.raise p)
  | none => .next (s.respond { thValue := data.extractLsb' 4 12 })

end Sys2Proof.Machine
end

