-- ==== Sys2Proof/Machine/Dispatch.lean ====
section
/-! DEFINITION. One arm per instruction, each one call of its meaning. -/

namespace Sys2Proof.Machine

def exec (i : Instr) (s : State) : Host.Outcome State Fault Refusal :=
  match i with
  | .encode given => Sys2Proof.Machine.execEncode given s
  | .decode data => Sys2Proof.Machine.execDecode data s
  | .update given => Sys2Proof.Machine.execUpdate given s
  | .start => Sys2Proof.Machine.execStart s
  | .busy data => Sys2Proof.Machine.execBusy data s
  | .reset => Sys2Proof.Machine.execReset s
  | .conv gain data => Sys2Proof.Machine.execConv gain data s
  | .setth reg data => Sys2Proof.Machine.execSetth reg data s
  | .getth reg data => Sys2Proof.Machine.execGetth reg data s

end Sys2Proof.Machine
end

