-- ==== Sys2Proof/Machine/Bus.lean ====
section
/-! DEFINITION. The transport the host moves register words with (R43-R49), and the chip at its other end, whose register
contents are draws (R31, R218, R219): each bus operation takes one draw from the environment. -/

namespace Sys2Proof.Machine

/-! ## The chip -/

/-- The contents of the register a pointer selects (R41). -/
def ChipRegs.get (r : ChipRegs) : ChipReg → Word
  | .conversion => r.conversion
  | .configuration => r.configuration
  | .lowThreshold => r.lowThreshold
  | .highThreshold => r.highThreshold

/-- A conversion is in flight: bit 15 of the configuration register is 0 (R31, R73). -/
def Chip.converting (c : Chip) : Bool := !c.regs.configuration.getLsbD 15

/-- The word an idle chip holds after a general call, "post-reset default pattern" (R213): every field of it decodes to
its default. -/
def idleWord : Word := 0x8583

/-- The bits of the configuration register a general call leaves at their defaults: those of the profile's fields (R49), OS
excepted where a conversion may be in flight, of which the source says nothing (R223, 93 I16; log entry 10). -/
def defaultedBits (p : Profile) (inFlight : Bool) : Word := if inFlight then owned p &&& 0x7FFF else owned p

/-- A configuration word whose defaulted bits are those of `idleWord` and whose other bits are `w`'s. -/
def atDefaultsWord (p : Profile) (inFlight : Bool) (w : Word) : Word :=
  (w &&& ~~~defaultedBits p inFlight) ||| (idleWord &&& defaultedBits p inFlight)

/-- What the chip `c` holds after a general call: draws, but for what the source says of its configuration register (R49,
D35, R223). -/
def Chip.contentsAtDefaults (p : Profile) (c : Chip) (r : ChipRegs) : ChipRegs :=
  { r with configuration := atDefaultsWord p c.converting r.configuration }

/-- What the chip holds when the next bus operation reaches it: a draw, but for what a general call left (R49, R223). -/
def Chip.contents (p : Profile) (c : Chip) (r : ChipRegs) : ChipRegs :=
  if c.atDefaults then c.contentsAtDefaults p r else r

/-- What the chip holds right after a register write was delivered: a draw; but a configuration word with bit 15 set, written
to an idle chip, has begun a conversion (R49, R172). A start while one is in flight leaves everything open (R219). -/
def Chip.contentsAfterWrite (c : Chip) (reg : ChipReg) (w : Word) (r : ChipRegs) : ChipRegs :=
  if reg = .configuration ∧ w.getLsbD 15 ∧ !c.converting then
    { r with configuration := r.configuration &&& 0x7FFF }
  else r

/-! ## Draws -/

/-- The free value of a bus operation nothing has decided (log entry 8). -/
def freeDraw (n : Nat) : Draw where
  ok := Config.transportOk n
  regs :=
    { conversion := Config.chipWord n ChipReg.conversion.pointer
      configuration := Config.chipWord n ChipReg.configuration.pointer
      lowThreshold := Config.chipWord n ChipReg.lowThreshold.pointer
      highThreshold := Config.chipWord n ChipReg.highThreshold.pointer }

/-- What the environment decides at the next bus operation. -/
def State.draw (s : State) : Draw :=
  match s.draws with
  | [] => freeDraw s.drawn
  | d :: _ => d

/-- The state with that draw taken. -/
def State.afterDraw (s : State) : State :=
  match s.draws with
  | [] => { s with drawn := s.drawn + 1 }
  | _ :: rest => { s with draws := rest }

/-- An event happened. -/
def State.log (s : State) (e : Event) : State := { s with trace := e :: s.trace }

/-! ## The three transport primitives -/

/-- The pointer byte of a register (R41). -/
def pointerByte (reg : ChipReg) : Byte := reg.pointer.setWidth 8

/-- What `ReadReg(ptr, 2)` answers (R45); `none` is `TransportError`. -/
def State.readAnswer (s : State) (reg : ChipReg) : Option Word :=
  if s.draw.ok then some ((s.chip.contents s.build.profile s.draw.regs).get reg) else none

/-- The state after `ReadReg(ptr, 2)` (R45). -/
def State.afterRead (s : State) (reg : ChipReg) : State :=
  { s.afterDraw with chip := { regs := s.chip.contents s.build.profile s.draw.regs, atDefaults := false } }.log
    (.read (pointerByte reg) ((s.readAnswer reg).map fun w : Word => (w.high, w.low)))

/-- The state after `WriteReg(ptr, [b0, b1])` (R44, R47): both bytes go out in one transaction, high byte first. Whether it
was delivered is `s.draw.ok`. -/
def State.afterWrite (s : State) (reg : ChipReg) (w : Word) : State :=
  { s.afterDraw with
    chip :=
      { regs := if s.draw.ok then s.chip.contentsAfterWrite reg w s.draw.regs else s.draw.regs
        atDefaults := false } }.log
    (.wrote (pointerByte reg) w.high w.low s.draw.ok)

/-- The bus address of the general call (R86). -/
def generalCallAddress : Byte := 0x00

/-- The command byte of the general call (R86). -/
def generalCallCommand : Byte := 0x06

/-- The state after `GeneralCall()` (R46, R49, R223). Whether it was delivered is `s.draw.ok`. -/
def State.afterGeneralCall (s : State) : State :=
  { s.afterDraw with
    chip :=
      { regs := if s.draw.ok then s.chip.contentsAtDefaults s.build.profile s.draw.regs else s.draw.regs
        atDefaults := s.draw.ok } }.log
    (.generalCall generalCallAddress generalCallCommand s.draw.ok)

/-- Why no host move makes an access with this pointer byte: it is above 0x03 (R41), or a threshold pointer on a `base`
chip (R42). -/
def pointerRefusal (p : Profile) (ptr : Byte) : Option Refusal :=
  if 3 < ptr.toNat then some .noSuchPointer
  else if p = .base ∧ 1 < ptr.toNat then some .thresholdOnBase
  else none

end Sys2Proof.Machine
end

