-- ==== Sys2Proof/Machine/SessionStep.lean ====
section
/-! DEFINITION. The host: the sequences of 45_host_sequences.md, one transport operation or one command at a time
(R50, R170-R181). -/

namespace Sys2Proof.Machine

/-! ## Moving through a sequence -/

/-- The running sequence goes on to `p`. -/
def State.goto (s : State) (p : Phase) : State := { s with session := { s.session with phase := p } }

/-- The running sequence ends and returns `r` to its caller. -/
def State.finish (s : State) (r : CallResult) : State :=
  { s with session := { s.session with phase := .idle, result := some r } }

/-- The call at the head of the host's list is taken. -/
def State.takeCall (s : State) (rest : List Call) : State := { s with session := { s.session with calls := rest } }

/-- Issue a command word and wait for its response in phase `p`. -/
def State.askWord (s : State) (w : Command) (p : Phase) : State := (s.issue w).goto p

/-- Issue a command and wait for its response in phase `p`. -/
def State.ask (s : State) (i : Instr) (p : Phase) : State := s.askWord (encode i) p

/-- `ReadReg(ptr, 2)`, then go on with the word; a `TransportError` ends the sequence (R179). -/
def State.readThen (s : State) (reg : ChipReg) (k : Word → State → State) : State :=
  match s.readAnswer reg with
  | some w => k w (s.afterRead reg)
  | none => (s.afterRead reg).finish (.failed .transportError)

/-- `WriteReg(ptr, word)`, then go on; a `TransportError` ends the sequence (R179). -/
def State.writeThen (s : State) (reg : ChipReg) (w : Word) (k : State → State) : State :=
  if s.draw.ok then k (s.afterWrite reg w) else (s.afterWrite reg w).finish (.failed .transportError)

/-- `GeneralCall()`, which ends the sequence (R174, R179). -/
def State.callThenFinish (s : State) : State :=
  s.afterGeneralCall.finish (if s.draw.ok then .done else .failed .transportError)

/-! ## Starting a sequence -/

/-- The host takes up a call. DESIGN CHOICE, twice: a single command with the `op` of BUSY is refused as `busyWordNotLive`
whatever its reserved bits are, though 93 I2 refuses those too and neither rule goes first (log entry 23); and a transport
write takes any two bytes, from a response or not (R216; log entry 26). -/
def beginCall (c : Call) (s : State) : Host.Outcome State Fault Refusal :=
  match c with
  | .command w =>
    if opField w = (Instr.busy 0).op then .refused .busyWordNotLive else .next (s.askWord w .awaitCommand)
  | .updateConfig given => .next (s.ask (.update given) (.awaitWrite .configuration))
  | .requestOneShot => .next (s.ask .start (.awaitWrite .configuration))
  | .isBusy => .next (s.readThen .configuration fun w t => t.ask (.busy w) .awaitBusy)
  | .generalReset => .next (s.ask .reset .awaitReset)
  | .conversionRead => .next (s.readThen .conversion fun w t => t.ask (.conv none w) .awaitReading)
  | .setThreshold reg value =>
    if s.build.profile = .base then .next (s.finish (.failed .unsupportedOperation))
    else .next (s.ask (.setth reg.reg value) (.awaitWrite reg.reg))
  | .getThreshold reg =>
    if s.build.profile = .base then .next (s.finish (.failed .unsupportedOperation))
    else .next (s.readThen reg.reg fun w t => t.ask (.getth reg.reg w) .awaitThreshold)
  | .configRead => .next (s.readThen .configuration fun w t => t.ask (.decode w) .awaitSymbols)
  | .oneShot deadline => .next (s.ask .start (.awaitShotStart deadline))
  | .writeReg ptr bytes =>
    match bytes with
    | [b0, b1] =>
      match pointerRefusal s.build.profile ptr with
      | some r => .refused r
      | none =>
        .next (s.writeThen (ChipReg.ofPointer (ptr.setWidth 2)) (Word.ofBytes b0 b1) fun t => t.finish .done)
    | [_] => .refused .oneByteWrite
    | _ => .refused .accessLength
  | .readReg ptr length =>
    if length ≠ 2 then .refused .accessLength
    else
      match pointerRefusal s.build.profile ptr with
      | some r => .refused r
      | none => .next (s.readThen (ChipReg.ofPointer (ptr.setWidth 2)) fun w t => t.finish (.word w))
  | .generalCall => .next s.callThenFinish

/-! ## Going on with a sequence -/

/-- Poll number `polls` said the chip is still converting: the poll bound, the caller's deadline, or a sleep and the next poll
(R178, R180). The spec leaves the form of the deadline open. DESIGN CHOICE (log entry 17): it is a number of polls; the bound
is looked at first; the loop is abandoned right after the poll of exactly that number, and polls count from 1, so that a
deadline of 0 polls is never reached and abandons nothing. -/
def stillBusy (polls : Nat) (deadline : Option Nat) (s : State) : State :=
  if s.build.maxPolls = some polls then s.finish .timeout
  else if deadline = some polls then s.finish .abandoned
  else (s.log (.slept (sampleRate s.build.drSps s.cfg.dr))).goto (.poll polls deadline)

/-- The host goes on with the response `r` to the command it issued. A phase that waits for none is left as it is.
What the caller of a single RESET gets back the spec leaves open. DESIGN CHOICE (log entry 15): the outcome of the general
call, as for `general_reset()` (`TransportError` where it is lost is R179's), and not the response. -/
def onResponse (p : Phase) (r : Response) (s : State) : State :=
  match p with
  | .awaitWrite reg =>
    if r.status = .ok then s.writeThen reg r.wordOut fun t => t.finish .done
    else s.finish (.failed r.status)
  | .awaitBusy => s.finish (.busy r.busy)
  | .awaitReset => if r.gcReq then s.callThenFinish else s.finish .done
  | .awaitReading => s.finish (.reading r.raw12 r.scaledQ3)
  | .awaitThreshold => s.finish (.threshold r.thValue)
  | .awaitSymbols => s.finish (.symbols r.symValid r.symOut)
  | .awaitCommand => if r.gcReq then s.callThenFinish else s.finish (.response r)
  | .awaitShotStart deadline => s.writeThen .configuration r.wordOut fun t => t.goto (.poll 0 deadline)
  | .awaitPoll polls deadline => if r.busy then stillBusy polls deadline s else s.goto .shotRead
  | .idle | .poll _ _ | .shotRead => s

/-- A phase that waits for a response takes it; with none there the host has no step. -/
def awaitResponse (p : Phase) (s : State) : Host.Outcome State Fault Refusal :=
  match s.response with
  | some r => .next (onResponse p r s)
  | none => .fault .noResponse

/-- One step of the host, taken when no command is at the port. With nothing to do it waits, and nothing changes. -/
def sessionStep (s : State) : Host.Outcome State Fault Refusal :=
  match s.session.phase with
  | .idle =>
    match s.session.calls with
    | [] => .next s
    | c :: rest => beginCall c (s.takeCall rest)
  | .poll polls deadline =>
    .next (s.readThen .configuration fun w t => t.ask (.busy w) (.awaitPoll (polls + 1) deadline))
  | .shotRead => .next (s.readThen .conversion fun w t => t.ask (.conv none w) .awaitReading)
  | .awaitWrite reg => awaitResponse (.awaitWrite reg) s
  | .awaitBusy => awaitResponse .awaitBusy s
  | .awaitReset => awaitResponse .awaitReset s
  | .awaitReading => awaitResponse .awaitReading s
  | .awaitThreshold => awaitResponse .awaitThreshold s
  | .awaitSymbols => awaitResponse .awaitSymbols s
  | .awaitCommand => awaitResponse .awaitCommand s
  | .awaitShotStart deadline => awaitResponse (.awaitShotStart deadline) s
  | .awaitPoll polls deadline => awaitResponse (.awaitPoll polls deadline) s

end Sys2Proof.Machine
end

