-- ==== Sys2Proof/Machine/Step.lean ====
section
/-! DEFINITION. One step of the machine. The codec block takes the command at its port (R10); with none there, the host
moves (R170). -/

namespace Sys2Proof.Machine

/-- One step: fetch, decode and run the command at the port, or a step of the host. -/
def step (s : State) : Host.Outcome State Fault Refusal :=
  match fetch s with
  | none => sessionStep s
  | some (w, t) =>
    match decode w with
    | .instr i => exec i t
    | .refused why => .refused (refusalOf why)

/-- `s` with a command word issued at the port, ahead of any other, so that the next step runs it. -/
def State.withFetchWord (s : State) (nbits w : Nat) : State :=
  { s with port := BitVec.ofNat 64 (w % 2 ^ nbits) :: s.port }

end Sys2Proof.Machine
end

