-- ==== Sys2Proof/Machine/Built.lean ====
section
/-! DEFINITION. A codec block built to the spec, where it answers what a model refuses: a reserved operation is answered with
an error, and reserved bits are ignored (R65, R66, R205). `step` follows R205 and refuses both. -/

namespace Sys2Proof.Machine

/-- What a built codec block does with a command word (R65, R66). -/
def builtCommand (w : Command) (s : State) : Host.Outcome State Fault Refusal :=
  match decodeOp w with
  | .instr i => exec i s
  | .refused _ => .next (s.raise ⟨.unsupportedOperation, 0xF⟩)

/-- One step of the arrangement with a built codec block in it. -/
def builtStep (s : State) : Host.Outcome State Fault Refusal :=
  match fetch s with
  | none => sessionStep s
  | some (w, t) => builtCommand w t

end Sys2Proof.Machine
end

