-- ==== Sys2Proof/Safety.lean ====
section
/-! DEFINITION. What the claims call a good state: a legal build, a complete and legal `CFG`, and a host that waits only for a
response that is on its way. -/

namespace Sys2Proof.Machine

/-- R24-R26 for one slot: a field of the profile holds a legal index, OS holds `not_converting`, and a field outside the
profile holds its default. -/
abbrev slotOk (b : Build) (f : Field) (sym : Sym) : Prop :=
  (has b.profile f → legal b.drTable f sym) ∧ (f = .os → sym = 0) ∧ (has b.profile f = false → sym = defaults.get f)

/-- R24-R26 for all of `CFG`. -/
abbrev cfgOk (b : Build) (cfg : Slots Sym) : Prop := ∀ f, slotOk b f (cfg.get f)

/-- The phases in which the host waits for a response. -/
def Phase.awaits : Phase → Bool
  | .idle | .poll _ _ | .shotRead => false
  | .awaitWrite _ | .awaitBusy | .awaitReset | .awaitReading | .awaitThreshold | .awaitSymbols | .awaitCommand => true
  | .awaitShotStart _ | .awaitPoll _ _ => true

/-- The host waits only while its command is at the port or the response to it is there. -/
abbrev hostOk (s : State) : Prop := s.session.phase.awaits = true → s.port ≠ [] ∨ s.response ≠ none

/-- The invariant of every run: R6's bound on `MAX_POLLS`, R24-R26, and the host's handshake (R181). -/
abbrev State.Inv (s : State) : Prop := s.build.wf ∧ cfgOk s.build s.cfg ∧ hostOk s

/-- The response of an outcome, where there is one. -/
def answerOf : Host.Outcome State Fault Refusal → Option Response
  | .next s => s.response
  | .fault _ => none
  | .refused _ => none

/-- The next state of an outcome, where there is one. -/
def nextOf : Host.Outcome State Fault Refusal → Option State
  | .next s => some s
  | .fault _ => none
  | .refused _ => none

end Sys2Proof.Machine
end

