-- ==== Sys2Proof/Certificates/Slice0/Obligations.lean ====
section
/-! DEFINITION. The statements about the model, each a `Prop` to be proved elsewhere, with the few words they are written in:
the tables of the spec as numbers, the checks as "the first field with a property", and the host's runs. -/

open Sys2Proof Sys2Proof.Machine

namespace Sys2Proof.Claims

/-! ## The configuration word, read as a number -/

/-- The number in bits `POS(f) + width - 1 : POS(f)` of a word (R70, R100). -/
def fieldBits (f : Field) (w : Word) : Nat := w.toNat / 2 ^ pos f % 2 ^ width f

/-- The `OWNED` masks as R72 lists them. -/
def ownedMask : Profile → Word
  | .base => 0x81E0
  | .extended => 0x8FFF
  | .extendedMux => 0xFFFF

/-- The word encodes the symbols `m`: every field of the profile whose symbol is legal holds its canonical code, and every
bit outside `OWNED` is 0 (R101, R72). -/
def WordHolds (b : Build) (w : Word) (m : Field → Sym) : Prop :=
  (∀ f, has b.profile f → legal b.drTable f (m f) → fieldBits f w = (canonicalCode b.drTable f (m f)).toNat) ∧
  (∀ k, (ownedMask b.profile).getLsbD k = false → w.getLsbD k = false)

/-! ## The checks of R103 and R104 -/

/-- The first field, in index order, with a property. -/
def First (p : Field → Prop) (f : Field) : Prop := p f ∧ ∀ g, p g → f.index ≤ g.index

/-- The field is given and the profile lacks it. -/
def Lacking (b : Build) (given : Given) (f : Field) : Prop := given.get f ≠ none ∧ has b.profile f = false

/-- The field is given with a symbol index outside `LEGAL`. -/
def Illegal (b : Build) (given : Given) (f : Field) : Prop :=
  ∃ sym, given.get f = some sym ∧ legal b.drTable f sym = false

/-- A field of the profile other than OS is not given. -/
def Absent (b : Build) (given : Given) (f : Field) : Prop :=
  f ≠ .os ∧ has b.profile f = true ∧ given.get f = none

/-- The error GATE raises (R103): the first field the profile lacks, else the first with an illegal symbol. -/
def GateRaises (b : Build) (given : Given) (p : Problem) : Prop :=
  (∃ f, First (Lacking b given) f ∧ p = ⟨.unsupportedOperation, BitVec.ofNat 4 f.index⟩) ∨
  ((∀ f, ¬ Lacking b given f) ∧ ∃ f, First (Illegal b given) f ∧ p = ⟨.invalidFieldValue, BitVec.ofNat 4 f.index⟩)

/-- GATE raises nothing (R103). -/
def GatePasses (b : Build) (given : Given) : Prop := ∀ f, ¬ Lacking b given f ∧ ¬ Illegal b given f

/-! ## Samples and thresholds, as integers -/

/-- `RAW12` with the base rule as the source words it: `v` read as 16-bit signed, shifted right by 4 (R140). -/
def sample (v : Word) : Int := if v = 0xFFF0 then -2048 else v.toInt / 16

/-- The full-scale range of a gain symbol in mV (R75, R141). -/
def fsr (sym : Sym) : Int :=
  match sym.toNat with
  | 0 => 6144
  | 1 => 4096
  | 2 => 2048
  | 3 => 1024
  | 4 => 512
  | _ => 256

/-- A response that reports `raw` and the value `8 * raw * FSR / 2048`, exactly, in units of 1/8 mV (R142, R143). -/
def Reports (r : Response) (raw range : Int) : Prop :=
  r = { raw12 := r.raw12, scaledQ3 := r.scaledQ3 } ∧ r.raw12.toInt = raw ∧ 2048 * r.scaledQ3.toInt = 8 * raw * range

/-! ## Operands a command reads -/

/-- Two command words agree on `op` and on every operand that operation reads (R67). -/
def AgreeOnReads (v w : Command) : Prop :=
  opField v = opField w ∧
  (opField v = 1 ∨ opField v = 3 →
    ∀ f, presentField v f = presentField w f ∧ (presentField v f = true → symField v f = symField w f)) ∧
  (opField v = 7 →
    presentField v .pga = presentField w .pga ∧ (presentField v .pga = true → symField v .pga = symField w .pga)) ∧
  (opField v = 8 ∨ opField v = 9 → ptrField v = ptrField w) ∧
  (opField v ∈ [2, 5, 7, 8, 9] → dataField v = dataField w)

/-- The bits of a word that its operation reads (R60-R63). -/
def readBits (w : Command) : Instr → Command
  | .encode _ | .update _ =>
    Field.all.foldr (fun f m => (if presentField w f then (7 : Command) <<< (16 + 3 * f.index) else 0) ||| m) 0x7FCF
  | .decode _ | .busy _ => 0xFFFF00000000000F
  | .start | .reset => 0xF
  | .conv gain _ => if gain = none then 0xFFFF00000000010F else 0xFFFF000001C0010F
  | .setth _ _ | .getth _ _ => 0xFFFF00000000003F

/-! ## Runs of the host -/

/-- The machine gets from `s` to `t` in `k` steps. -/
def Reaches (k : Nat) (s t : State) : Prop := Host.Core.run Sys2Proof.core k s = .next t

/-- The host is about to take up the call `c`, with the calls `rest` after it. -/
def Calling (s : State) (c : Call) (rest : List Call) : Prop :=
  s.port = [] ∧ s.session.phase = .idle ∧ s.session.calls = c :: rest

/-- A sequence ended with a result, and nothing is left of it but its events. -/
def Ended (t : State) (rest : List Call) (r : CallResult) : Prop :=
  t.port = [] ∧ t.session = { calls := rest, phase := .idle, result := some r }

/-- The event of a register read that gave the word `w` (R45). -/
def readEvent (ptr : Byte) (w : Word) : Event := .read ptr (some (w.high, w.low))

/-- The environment delivers the operation and the configuration register says that the chip is converting, or that it is
not (R73). -/
def Finds (converting : Bool) (d : Draw) : Prop := d.ok = true ∧ d.regs.configuration.getLsbD 15 = !converting

/-- A conversion that was in flight still is, after two more bus operations that drew `d` and `e`: neither found bit 15
set (R223). -/
def stillInFlight (s : State) (d e : Draw) : Bool :=
  s.chip.converting && !d.regs.configuration.getLsbD 15 && !e.regs.configuration.getLsbD 15

/-- The events of a poll loop, newest first: configuration reads with one sleep between each two (R178). -/
def pollEvents : List Event → Bool
  | [.read p (some _)] => p = 1
  | .read p (some _) :: .slept _ :: l => p = 1 && pollEvents l
  | _ => false

end Sys2Proof.Claims

open Sys2Proof.Claims

/-! ## Reset -/

/-- R27: the default of each slot, and the code it encodes to. -/
def Obligations.DefaultSymbolsAndCodes : Prop :=
  (∀ b, (State.powerOn b).cfg = ⟨0, 0, 2, 1, 4, 0, 0, 0, 3⟩) ∧
  (∀ t, Slots.ofFn (fun f => encCode t f (defaults.get f)) = (⟨0, 0, 2, 1, 4, 0, 0, 0, 3⟩ : Slots (BitVec 3)))

/-- R28: all nine slots hold their defaults after power-on reset and after the RESET command. -/
def Obligations.BothResetsGiveDefaults : Prop :=
  (∀ b, (State.powerOn b).cfg = defaults) ∧ (∀ s, ∃ t, exec .reset s = .next t ∧ t.cfg = defaults)

/-- R210: power-on reset produces no response and no bus traffic. The build of `State.reset` is the model's choice (log
entry 2). -/
def Obligations.PowerOnIsSilent : Prop :=
  (∀ b, (State.powerOn b).build = b ∧ (State.powerOn b).response = none ∧ (State.powerOn b).trace = []) ∧
  State.reset = State.powerOn Config.build

/-- The invariant holds right after power-on, for every legal build. -/
def Obligations.InvAtPowerOn : Prop := ∀ b, b.wf → (State.powerOn b).Inv

/-- Every step keeps the invariant: R6's bound, the complete and legal `CFG` of R24-R26, and the host's handshake. -/
def Obligations.EveryStepKeepsInv : Prop := ∀ s t, s.Inv → step s = .next t → t.Inv

/-- No step from a state of the invariant is a fault. -/
def Obligations.NoStepFaults : Prop := ∀ s, s.Inv → ∀ e, step s ≠ .fault e

/-! ## The configuration state register and the parameters -/

/-- R29: `CFG` changes only in a step that runs UPDATE or RESET. -/
def Obligations.OnlyUpdateAndResetWriteCfg : Prop :=
  ∀ s t, step s = .next t → t.cfg ≠ s.cfg →
    ∃ w rest, s.port = w :: rest ∧ ((∃ given, decode w = .instr (.update given)) ∨ decode w = .instr .reset)

/-- R25, R26: the slots of OS and of the fields outside the profile hold their defaults from reset onward, and no command
reads them. -/
def Obligations.HiddenSlotsHoldAndAreNotRead : Prop :=
  (∀ b f, (State.powerOn b).cfg.get f = defaults.get f) ∧
  (∀ s t f, step s = .next t → (f = .os ∨ has s.build.profile f = false) → s.cfg.get f = defaults.get f →
    t.cfg.get f = defaults.get f) ∧
  (∀ i s c, (∀ f, f ≠ .os → has s.build.profile f = true → c.get f = s.cfg.get f) →
    ∃ r d d', exec i s = .next { s with cfg := d, response := some r } ∧
      exec i { s with cfg := c } = .next { s with cfg := d', response := some r } ∧
      ∀ f, f ≠ .os → has s.build.profile f = true → d'.get f = d.get f)

/-- R21: no step changes `PROFILE` or any other parameter. -/
def Obligations.BuildNeverChanges : Prop := ∀ s t, step s = .next t → t.build = s.build

/-- R20, R30: what a command answers and what it leaves in `CFG` depend on the parameters and `CFG` alone. -/
def Obligations.CommandsDependOnBuildAndCfg : Prop :=
  ∀ i s s', s.build = s'.build → s.cfg = s'.cfg →
    ∃ r c, exec i s = .next { s with cfg := c, response := some r } ∧
      exec i s' = .next { s' with cfg := c, response := some r }

/-- The frame of every command: the parameters, the port, the host, the chip and the bus are as before, and a slot of `CFG`
differs only after RESET, or after an UPDATE that gives it. -/
def Obligations.CommandFrame : Prop :=
  ∀ i s t, exec i s = .next t →
    t.build = s.build ∧ t.port = s.port ∧ t.session = s.session ∧ t.chip = s.chip ∧ t.draws = s.draws ∧
    t.drawn = s.drawn ∧ t.trace = s.trace ∧
    ∀ f, t.cfg.get f ≠ s.cfg.get f →
      i = .reset ∨ ∃ given, i = .update given ∧ given.get f ≠ none ∧ f ≠ .os ∧ has s.build.profile f = true

/-! ## Responses -/

/-- R10, R195, R197, R220: every command completes in one step with one response, never a `TransportError`, and with
`err_field` 0xF on success. -/
def Obligations.EveryCommandAnswers : Prop :=
  ∀ i s, ∃ t r, exec i s = .next t ∧ t.response = some r ∧ r.status ≠ .transportError ∧
    (r.status = .ok → r.errField = 0xF)

/-- R198: an error writes no state, and its response holds `status` and `err_field` only. -/
def Obligations.ErrorsWriteNoState : Prop :=
  ∀ i s, ∃ t r, exec i s = .next t ∧ t.response = some r ∧
    (r.status ≠ .ok → t = { s with response := some { status := r.status, errField := r.errField } })

/-- R194: OutOfRange comes from SETTH alone, for a value outside [-2048, 2047] (where no earlier check of R196 fails), with
`err_field` 0xF. -/
def Obligations.OutOfRangeOnlyFromSetth : Prop :=
  ∀ i s t r, exec i s = .next t → t.response = some r →
    (r.status = .outOfRange ↔
      ∃ reg data, i = .setth reg data ∧ s.build.profile ≠ .base ∧ (reg = .lowThreshold ∨ reg = .highThreshold) ∧
        (data.toInt < -2048 ∨ 2047 < data.toInt)) ∧
    (r.status = .outOfRange → r.errField = 0xF)

/-! ## The BitField Table and the codec functions -/

/-- R69, R71: the descriptors, their positions and profiles; no two fields share a bit and together they cover all 16. -/
def Obligations.BitFieldTable : Prop :=
  Field.all.map (fun f => (f.index, (descriptor f).byteIndex, (descriptor f).bitOffset, (descriptor f).bitWidth, pos f)) =
    [(0, 0, 7, 1, 15), (1, 0, 4, 3, 12), (2, 0, 1, 3, 9), (3, 0, 0, 1, 8), (4, 1, 5, 3, 5), (5, 1, 4, 1, 4),
      (6, 1, 3, 1, 3), (7, 1, 2, 1, 2), (8, 1, 0, 2, 0)] ∧
  Field.all.filter (has .base) = [.os, .mode, .dr] ∧
  Field.all.filter (has .extended) = [.os, .pga, .mode, .dr, .cmode, .cpol, .clat, .cque] ∧
  Field.all.filter (has .extendedMux) = Field.all ∧
  (∀ f, (descriptor f).bitOffset + (descriptor f).bitWidth ≤ 8) ∧
  (∀ k, k < 16 → ∃ f, (pos f ≤ k ∧ k < pos f + width f) ∧ ∀ g, pos g ≤ k → k < pos g + width g → g = f)

/-- The symbol tables R73-R81 by index and by code, and the legal sets of R82. -/
def Obligations.SymbolTables : Prop :=
  (∀ t, [0, 1, 2].map (canonicalCode t .os) = [0, 0, 1] ∧ [0, 1].map (decCode t .os) = [1, 0] ∧
    [0, 1, 2, 3, 4, 5].map (canonicalCode t .pga) = [0, 1, 2, 3, 4, 5] ∧
    [0, 1, 2, 3, 4, 5, 6, 7].map (decCode t .pga) = [0, 1, 2, 3, 4, 5, 5, 5] ∧
    [0, 1, 2, 3, 4, 5, 6, 7].map (canonicalCode t .mux) = [0, 1, 2, 3, 4, 5, 6, 7] ∧
    [0, 1, 2, 3, 4, 5, 6, 7].map (decCode t .mux) = [0, 1, 2, 3, 4, 5, 6, 7] ∧
    [0, 1, 2, 3].map (canonicalCode t .cque) = [0, 1, 2, 3] ∧ [0, 1, 2, 3].map (decCode t .cque) = [0, 1, 2, 3] ∧
    ∀ f ∈ [Field.mode, .cmode, .cpol, .clat], [0, 1].map (canonicalCode t f) = [0, 1] ∧ [0, 1].map (decCode t f) = [0, 1]) ∧
  [0, 1, 2, 3, 4, 6].map (canonicalCode .source .dr) = [0, 1, 2, 3, 4, 5] ∧
  [0, 1, 2, 3, 4, 5, 6, 7].map (decCode .source .dr) = [0, 1, 2, 3, 4, 6, 6, 6] ∧
  [0, 1, 2, 3, 4, 5, 6].map (canonicalCode .datasheet .dr) = [0, 1, 2, 3, 4, 5, 6] ∧
  [0, 1, 2, 3, 4, 5, 6, 7].map (decCode .datasheet .dr) = [0, 1, 2, 3, 4, 5, 6, 6] ∧
  (∀ t, Field.all.map (fun f => [0, 1, 2, 3, 4, 5, 6, 7].filter (legal t f)) =
    [[0, 1, 2], [0, 1, 2, 3, 4, 5, 6, 7], [0, 1, 2, 3, 4, 5], [0, 1],
      if t = .source then [0, 1, 2, 3, 4, 6] else [0, 1, 2, 3, 4, 5, 6], [0, 1], [0, 1], [0, 1], [0, 1, 2, 3]])

/-- R83: decoding is total, and many-to-one where duplicate codes exist; encoding picks the lowest code that decodes to the
symbol (but for OS); and decoding inverts encoding for every field but OS. -/
def Obligations.MapLaws : Prop :=
  (∀ t f (c : BitVec 3), c.toNat < 2 ^ width f → legal t f (decCode t f c) = true) ∧
  (∀ t, decCode t .pga 5 = decCode t .pga 6 ∧ decCode t .pga 6 = decCode t .pga 7 ∧ decCode t .dr 6 = decCode t .dr 7) ∧
  (∀ t f sym, f ≠ .os → legal t f sym = true →
    (encCode t f sym).toNat < 2 ^ width f ∧ decCode t f (encCode t f sym) = sym ∧
    ∀ c : BitVec 3, c.toNat < 2 ^ width f → decCode t f c = sym → (encCode t f sym).toNat ≤ c.toNat) ∧
  (∀ t, ∃ sym, legal t .os sym = true ∧ decCode t .os (encCode t .os sym) ≠ sym)

/-- R100: both forms of `CODE(i, w)`, the shifted and masked byte and the slice of the word. -/
def Obligations.CodeIsASliceOfTheWord : Prop :=
  ∀ f (w : Word),
    code f w = (((if (descriptor f).byteIndex = 0 then w.extractLsb' 8 8 else w.extractLsb' 0 8) >>>
      (descriptor f).bitOffset) &&& ((1 : BitVec 8) <<< (descriptor f).bitWidth - 1)).setWidth 3 ∧
    (code f w).toNat = fieldBits f w

/-- R72: `OWNED` is the union of the bits of the profile's fields and has the value R72 lists; encoding writes 0 outside it
and decoding ignores what is outside it. -/
def Obligations.BitsOutsideOwned : Prop :=
  (∀ p, owned p = ownedMask p) ∧
  (∀ p k, (ownedMask p).getLsbD k = true ↔ ∃ f, has p f = true ∧ pos f ≤ k ∧ k < pos f + width f) ∧
  (∀ b m, encWord b m &&& ~~~(ownedMask b.profile) = 0) ∧
  (∀ b (v w : Word), v &&& ownedMask b.profile = w &&& ownedMask b.profile → decWord b v = decWord b w)

/-- R110: decoding an encoded configuration gives it back, but for OS, which comes back as `not_converting` after
`start_one_shot` and as `converting` otherwise. -/
def Obligations.CodecRoundTrip : Prop :=
  ∀ b (m : Slots Sym), (∀ f, has b.profile f → legal b.drTable f (m.get f)) →
    ∀ f, has b.profile f →
      (decWord b (encWord b m)).get f = some (if f = .os then (if m.os = 2 then 0 else 1) else m.get f)

/-- R111: re-encoding a decoded word clears bit 15 and every bit outside `OWNED`, and puts the canonical code for a
duplicate one. -/
def Obligations.ReencodeIsCanonical : Prop :=
  (∀ b (w : Word),
    let v := encWord b (Slots.ofFn fun f => ((decWord b w).get f).getD 0)
    v.getLsbD 15 = false ∧ (∀ k, (ownedMask b.profile).getLsbD k = false → v.getLsbD k = false) ∧
    ∀ f, f ≠ .os → has b.profile f = true →
      fieldBits f v =
        if f = .pga then min (fieldBits f w) 5
        else if f = .dr then min (fieldBits f w) (if b.drTable = .source then 5 else 6)
        else fieldBits f w) ∧
  encWord { profile := .extendedMux } (Slots.ofFn fun f => ((decWord { profile := .extendedMux } 0xFFFF).get f).getD 0) =
    0x7BBF

/-! ## What each command answers -/

/-- R104: GATE, then the first required field that is absent, then the word; ENCODE writes no state. -/
def Obligations.EncodeOutcome : Prop :=
  ∀ given s,
    (∀ p, GateRaises s.build given p → exec (.encode given) s = .next (s.raise p)) ∧
    (∀ f, GatePasses s.build given → First (Absent s.build given) f →
      exec (.encode given) s = .next (s.raise ⟨.invalidFieldValue, BitVec.ofNat 4 f.index⟩)) ∧
    (GatePasses s.build given → (∀ f, ¬ Absent s.build given f) →
      ∃ w, exec (.encode given) s = .next (s.respond { wordOut := w }) ∧
        WordHolds s.build w fun f => (given.get f).getD 0)

/-- R102, R105: DECODE never fails, reports the symbol of each field of the profile and nothing of the others, and writes no
state. -/
def Obligations.DecodeOutcome : Prop :=
  ∀ (w : Word) s, ∃ v o, exec (.decode w) s = .next (s.respond { symValid := v, symOut := o }) ∧
    ∀ f, v.getLsbD f.index = has s.build.profile f ∧
      o.extractLsb' (3 * f.index) 3 =
        if has s.build.profile f then decCode s.build.drTable f (BitVec.ofNat 3 (fieldBits f w)) else 0

/-- R106: GATE, then the merge, the word, the commit of the profile's fields but OS, and the write request. -/
def Obligations.UpdateOutcome : Prop :=
  ∀ given s,
    (∀ p, GateRaises s.build given p → exec (.update given) s = .next (s.raise p)) ∧
    (GatePasses s.build given →
      ∃ w c, exec (.update given) s =
          .next { s with cfg := c, response := some { wordOut := w, wrValid := true, wrPtr := 1 } } ∧
        WordHolds s.build w (fun f => (given.get f).getD (if f = .os then 0 else s.cfg.get f)) ∧
        ∀ f, c.get f = if f ≠ .os ∧ has s.build.profile f = true then (given.get f).getD (s.cfg.get f) else s.cfg.get f)

/-- R107: the word of `CFG` with `start_one_shot`, bit 15 set, and the write request; the same as an UPDATE that gives
`os=start_one_shot` only. -/
def Obligations.StartOutcome : Prop :=
  ∀ s, (∃ w, exec .start s = .next (s.respond { wordOut := w, wrValid := true, wrPtr := 1 }) ∧
      w.getLsbD 15 = true ∧ WordHolds s.build w fun f => if f = .os then 2 else s.cfg.get f) ∧
    exec (.update ⟨some 2, none, none, none, none, none, none, none, none⟩) s = exec .start s

/-- R108: `busy` is the complement of bit 15, whatever the other bits and the profile. -/
def Obligations.BusyOutcome : Prop :=
  ∀ (w : Word) s, exec (.busy w) s = .next (s.respond { busy := !w.getLsbD 15 })

/-- R109: all nine slots to their defaults, and the general call requested. -/
def Obligations.ResetOutcome : Prop :=
  ∀ s, exec .reset s = .next { s with cfg := ⟨0, 0, 2, 1, 4, 0, 0, 0, 3⟩, response := some { gcReq := true } }

/-- R140-R143: the errors of CONV, and on success the exact sample and scaled value with the gain of the profile, of the
command, or of `CFG`. -/
def Obligations.ConvOutcome : Prop :=
  ∀ gain (w : Word) s,
    (s.build.profile = .base → gain ≠ none → exec (.conv gain w) s = .next (s.raise ⟨.unsupportedOperation, 2⟩)) ∧
    (s.build.profile ≠ .base → (∃ g, gain = some g ∧ 5 < g.toNat) →
      exec (.conv gain w) s = .next (s.raise ⟨.invalidFieldValue, 2⟩)) ∧
    (s.build.profile = .base → gain = none →
      ∃ r, exec (.conv gain w) s = .next (s.respond r) ∧ Reports r (sample w) 2048) ∧
    (s.build.profile ≠ .base → (gain.getD s.cfg.pga).toNat ≤ 5 →
      ∃ r, exec (.conv gain w) s = .next (s.respond r) ∧ Reports r (sample w) (fsr (gain.getD s.cfg.pga)))

/-- R144: the checks of SETTH in their order, and the word `((t & 0xFFF) << 4)[15:0]` with its write request. -/
def Obligations.SetthOutcome : Prop :=
  ∀ reg (t : Word) s,
    (s.build.profile = .base → exec (.setth reg t) s = .next (s.raise ⟨.unsupportedOperation, 0xF⟩)) ∧
    (s.build.profile ≠ .base → reg = .conversion ∨ reg = .configuration →
      exec (.setth reg t) s = .next (s.raise ⟨.unsupportedOperation, 0xF⟩)) ∧
    (s.build.profile ≠ .base → reg = .lowThreshold ∨ reg = .highThreshold →
      (t.toInt < -2048 ∨ 2047 < t.toInt → exec (.setth reg t) s = .next (s.raise ⟨.outOfRange, 0xF⟩)) ∧
      (-2048 ≤ t.toInt ∧ t.toInt ≤ 2047 →
        exec (.setth reg t) s =
          .next (s.respond
            { wordOut := (t &&& 0xFFF) <<< 4, wrValid := true, wrPtr := if reg = .lowThreshold then 2 else 3 })))

/-- R145: the checks of GETTH, and the threshold value, the upper 12 bits as a signed number, for every word. -/
def Obligations.GetthOutcome : Prop :=
  ∀ reg (w : Word) s,
    (s.build.profile = .base ∨ reg = .conversion ∨ reg = .configuration →
      exec (.getth reg w) s = .next (s.raise ⟨.unsupportedOperation, 0xF⟩)) ∧
    (s.build.profile ≠ .base → reg = .lowThreshold ∨ reg = .highThreshold →
      ∃ v, exec (.getth reg w) s = .next (s.respond { thValue := v }) ∧ v.toInt = w.toInt / 16)

/-- R147: GETTH of the word SETTH answers gives the value back; CONV of it does not, for -1. -/
def Obligations.ThresholdRoundTrip : Prop :=
  (∀ reg (t : Word) s, s.build.profile ≠ .base → reg = .lowThreshold ∨ reg = .highThreshold →
    -2048 ≤ t.toInt → t.toInt ≤ 2047 →
    ∃ r v, exec (.setth reg t) s = .next (s.respond r) ∧
      exec (.getth reg r.wordOut) s = .next (s.respond { thValue := v }) ∧ v.toInt = t.toInt) ∧
  (∀ reg s, s.build.profile ≠ .base → reg = .lowThreshold ∨ reg = .highThreshold →
    ∃ r, exec (.setth reg 0xFFFF) s = .next (s.respond r) ∧ rawSample r.wordOut = -2048)

/-- R148: on `base`, and with the gain at `fsr_2048`, the command succeeds, `raw12` is the sample, and `scaled_q3` is 8 times
it, so that the reading in mV is the sample. -/
def Obligations.BaseReadingsAreIntegers : Prop :=
  ∀ gain (w : Word) s,
    (s.build.profile = .base ∧ gain = none ∨ s.build.profile ≠ .base ∧ gain.getD s.cfg.pga = 2) →
    ∃ r, exec (.conv gain w) s = .next (s.respond r) ∧ r.status = .ok ∧ r.raw12.toInt = sample w ∧
      r.scaledQ3.toInt = 8 * r.raw12.toInt

/-- R213: the words UPDATE (with no field) and START answer when `CFG` holds its defaults. -/
def Obligations.EncodedDefaults : Prop :=
  ∀ s, s.cfg = defaults →
    exec (.update ⟨none, none, none, none, none, none, none, none, none⟩) s =
      .next (s.respond { wordOut := if s.build.profile = .base then 0x0180 else 0x0583, wrValid := true, wrPtr := 1 }) ∧
    exec .start s =
      .next (s.respond { wordOut := if s.build.profile = .base then 0x8180 else 0x8583, wrValid := true, wrPtr := 1 })

/-! ## The command word -/

/-- A step with a decodable command at the port (the model's own queue, log entry 3) takes it and runs it. -/
def Obligations.StepRunsDecodedCommand : Prop :=
  ∀ s w rest i, s.port = w :: rest → decode w = .instr i → step s = exec i { s with port := rest }

/-- Command words of the spec, one for each operation, and what they decode to. -/
def Obligations.SpecWordsDecode : Prop :=
  decode 0x0000000042000601 =
    .instr (.encode ⟨none, none, none, some 1, some 4, none, none, none, none⟩) ∧
  decode 0x8583000000000002 = .instr (.decode 0x8583) ∧
  decode 0x0000000000C00103 =
    .instr (.update ⟨none, none, some 3, none, none, none, none, none, none⟩) ∧
  decode 0x0000000000000004 = .instr .start ∧
  decode 0x0583000000000005 = .instr (.busy 0x0583) ∧
  decode 0x0000000000000006 = .instr .reset ∧
  decode 0x7FF0000000C00107 = .instr (.conv (some 3) 0x7FF0) ∧
  decode 0x7FF0000000000007 = .instr (.conv none 0x7FF0) ∧
  decode 0x07FF000000000038 = .instr (.setth .highThreshold 0x07FF) ∧
  decode 0x8000000000000029 = .instr (.getth .lowThreshold 0x8000)

/-- R64-R66: exactly the words with an assigned `op` and no reserved bit set decode. -/
def Obligations.DecoderAcceptsExactly : Prop :=
  ∀ w : Command, (∃ i, decode w = .instr i) ↔
    (1 ≤ w.toNat % 16 ∧ w.toNat % 16 ≤ 9) ∧ w.toNat / 2 ^ 15 % 2 = 0 ∧ w.toNat / 2 ^ 43 % 32 = 0

/-- Decoding the word of any instruction gives the instruction back, with every operand at every value. -/
def Obligations.DecodeInvertsEncode : Prop := ∀ i, decode (encode i) = .instr i

/-- The word of a decoded instruction is the word it was decoded from with the bits it does not read cleared (R67, R88). -/
def Obligations.EncodeKeepsTheBitsRead : Prop :=
  ∀ w i, decode w = .instr i → encode i = w &&& readBits w i

/-- R67: operands an operation does not read never change the response or the state: with no reserved bit set, two words that
agree on what their operation reads decode to the same, and a step with either at the port is the same; a built codec block
(which ignores reserved bits) does the same with both in any case. -/
def Obligations.DontCareOperands : Prop :=
  ∀ v w, AgreeOnReads v w →
    (v &&& 0x0000F80000008000 = 0 → w &&& 0x0000F80000008000 = 0 →
      decode v = decode w ∧ ∀ (s : State) rest, step { s with port := v :: rest } = step { s with port := w :: rest }) ∧
    decodeOp v = decodeOp w ∧ ∀ s, builtCommand v s = builtCommand w s

/-- R65: a model refuses a reserved operation; a built codec block answers it with UnsupportedOperation, `err_field` 0xF and
no change of state. That a word with a reserved bit set as well is refused under the operation's name, and not the bits', is
the model's choice (log entry 23). -/
def Obligations.ReservedOperations : Prop :=
  ∀ s w rest, s.port = w :: rest → (opField w = 0 ∨ 0xA ≤ (opField w).toNat) →
    step s = .refused (.reservedOp (opField w)) ∧
    builtStep s =
      .next { s with port := rest, response := some { status := .unsupportedOperation, errField := 0xF } }

/-- R66: a model refuses a command with bit 15 or one of bits 47:43 set; a built codec block ignores them. -/
def Obligations.ReservedBits : Prop :=
  ∀ s w rest, s.port = w :: rest → 1 ≤ (opField w).toNat → (opField w).toNat ≤ 9 →
    (w.toNat / 2 ^ 15 % 2 ≠ 0 ∨ w.toNat / 2 ^ 43 % 32 ≠ 0) →
    step s = .refused .reservedBits ∧ builtStep s = step { s with port := (w &&& ~~~0x0000F80000008000) :: rest }

/-- R205, D5: a built codec block does what the model does wherever the model answers a next state or a fault. -/
def Obligations.BuiltBlockRefines : Prop :=
  ∀ s, (∀ t, step s = .next t → builtStep s = .next t) ∧ (∀ e, step s = .fault e → builtStep s = .fault e)

/-! ## The host, the transport and the chip -/

/-- R50: a step of the host leaves the parameters and `CFG` alone and adds at most one event. -/
def Obligations.HostStepFrame : Prop :=
  ∀ s t, s.port = [] → step s = .next t →
    t.build = s.build ∧ t.cfg = s.cfg ∧ (t.trace = s.trace ∨ ∃ e, t.trace = e :: s.trace)

/-- R171: an error of UPDATE ends the sequence with no bus traffic; else its word is written to pointer 0x01, high byte
first, and `CFG` stays committed whatever the transport answers (R179). -/
def Obligations.ConfigurationUpdateSequence : Prop :=
  ∀ s given rest, Calling s (.updateConfig given) rest →
    ∃ t u r, exec (.update given) s = .next u ∧ u.response = some r ∧ Reaches 3 s t ∧ t.cfg = u.cfg ∧
      (r.status ≠ .ok → Ended t rest (.failed r.status) ∧ t.trace = s.trace) ∧
      (r.status = .ok → Ended t rest (if s.draw.ok then .done else .failed .transportError) ∧
        t.trace = .wrote 0x01 (r.wordOut.extractLsb' 8 8) (r.wordOut.extractLsb' 0 8) s.draw.ok :: s.trace)

/-- R172: one configuration write, of the word START answers, with bit 15 set; delivered to a chip that is not converting, it
begins a conversion (how the model's chip shows that: log entry 11). -/
def Obligations.OneShotRequestSequence : Prop :=
  ∀ s rest, Calling s .requestOneShot rest →
    ∃ t u r, exec .start s = .next u ∧ u.response = some r ∧ r.wordOut.getLsbD 15 = true ∧ Reaches 3 s t ∧
      t.cfg = s.cfg ∧ Ended t rest (if s.draw.ok then .done else .failed .transportError) ∧
      t.trace = .wrote 0x01 (r.wordOut.extractLsb' 8 8) (r.wordOut.extractLsb' 0 8) s.draw.ok :: s.trace ∧
      (s.draw.ok = true → s.chip.converting = false → t.chip.converting = true)

/-- R173: one live read of the configuration register; the answer is the complement of its bit 15. -/
def Obligations.BusySequence : Prop :=
  ∀ s rest, Calling s .isBusy rest →
    (∀ w, s.readAnswer .configuration = some w →
      ∃ t, Reaches 3 s t ∧ t.cfg = s.cfg ∧ Ended t rest (.busy (!w.getLsbD 15)) ∧
        t.trace = readEvent 0x01 w :: s.trace) ∧
    (s.readAnswer .configuration = none →
      ∃ t, Reaches 1 s t ∧ t.cfg = s.cfg ∧ Ended t rest (.failed .transportError) ∧
        t.trace = .read 0x01 none :: s.trace)

/-- R174: `CFG` goes to its defaults and one general call goes out, address 0x00 and command byte 0x06 (R86); `CFG` is reset
whether or not it succeeds. -/
def Obligations.GeneralResetSequence : Prop :=
  ∀ s rest, Calling s .generalReset rest →
    ∃ t, Reaches 3 s t ∧ t.cfg = defaults ∧ Ended t rest (if s.draw.ok then .done else .failed .transportError) ∧
      t.trace = .generalCall 0x00 0x06 s.draw.ok :: s.trace

/-- R175: one read of the conversion register; the answer is what CONV makes of the word with the gain of `CFG`. -/
def Obligations.ConversionReadSequence : Prop :=
  ∀ s rest, Calling s .conversionRead rest →
    (∀ w, s.readAnswer .conversion = some w →
      ∃ t u r, exec (.conv none w) s = .next u ∧ u.response = some r ∧ Reaches 3 s t ∧ t.cfg = s.cfg ∧
        Ended t rest (.reading r.raw12 r.scaledQ3) ∧ t.trace = readEvent 0x00 w :: s.trace) ∧
    (s.readAnswer .conversion = none →
      ∃ t, Reaches 1 s t ∧ t.cfg = s.cfg ∧ Ended t rest (.failed .transportError) ∧
        t.trace = .read 0x00 none :: s.trace)

/-- R176: on `base` both threshold calls end at once with no bus traffic; else `set_threshold` writes the word SETTH answers,
or ends with its error, and `get_threshold` reads the register and returns what GETTH makes of the word. -/
def Obligations.ThresholdSequences : Prop :=
  ∀ s rest (reg : Threshold),
    (∀ c, (∃ v, c = Call.setThreshold reg v) ∨ c = .getThreshold reg → Calling s c rest → s.build.profile = .base →
      ∃ t, Reaches 1 s t ∧ t.cfg = s.cfg ∧ Ended t rest (.failed .unsupportedOperation) ∧ t.trace = s.trace) ∧
    (∀ v, Calling s (.setThreshold reg v) rest → s.build.profile ≠ .base →
      ∃ t u r, exec (.setth reg.reg v) s = .next u ∧ u.response = some r ∧ Reaches 3 s t ∧ t.cfg = s.cfg ∧
        (r.status ≠ .ok → Ended t rest (.failed r.status) ∧ t.trace = s.trace) ∧
        (r.status = .ok → Ended t rest (if s.draw.ok then .done else .failed .transportError) ∧
          t.trace = .wrote (if reg = .low then 0x02 else 0x03) (r.wordOut.extractLsb' 8 8) (r.wordOut.extractLsb' 0 8)
            s.draw.ok :: s.trace)) ∧
    (Calling s (.getThreshold reg) rest → s.build.profile ≠ .base →
      (∀ w, s.readAnswer reg.reg = some w →
        ∃ t u r, exec (.getth reg.reg w) s = .next u ∧ u.response = some r ∧ Reaches 3 s t ∧ t.cfg = s.cfg ∧
          Ended t rest (.threshold r.thValue) ∧ t.trace = readEvent (if reg = .low then 0x02 else 0x03) w :: s.trace) ∧
      (s.readAnswer reg.reg = none →
        ∃ t, Reaches 1 s t ∧ t.cfg = s.cfg ∧ Ended t rest (.failed .transportError) ∧
          t.trace = .read (if reg = .low then 0x02 else 0x03) none :: s.trace))

/-- R177: one read of the configuration register; the answer is what DECODE reports of the word, and `CFG` is not
changed. -/
def Obligations.ConfigurationReadSequence : Prop :=
  ∀ s rest, Calling s .configRead rest →
    (∀ w, s.readAnswer .configuration = some w →
      ∃ t u r, exec (.decode w) s = .next u ∧ u.response = some r ∧ Reaches 3 s t ∧ t.cfg = s.cfg ∧
        Ended t rest (.symbols r.symValid r.symOut) ∧ t.trace = readEvent 0x01 w :: s.trace) ∧
    (s.readAnswer .configuration = none →
      ∃ t, Reaches 1 s t ∧ t.cfg = s.cfg ∧ Ended t rest (.failed .transportError) ∧
        t.trace = .read 0x01 none :: s.trace)

/-- R178-R180: one round of the poll loop: one configuration read; a `TransportError` ends the call, with nothing retried;
with bit 15 set the loop ends; else it ends at `MAX_POLLS`, at the caller's deadline (counted in polls, and looked at second: log entry 17), or sleeps `1 / DR_SPS(CFG[4])`
and polls again. -/
def Obligations.PollRound : Prop :=
  ∀ s polls deadline, s.port = [] → s.session.phase = .poll polls deadline →
    (∀ w, s.readAnswer .configuration = some w →
      ∃ t, Reaches 3 s t ∧ t.port = [] ∧ t.cfg = s.cfg ∧
        (w.getLsbD 15 = true → t.session = { s.session with phase := .shotRead } ∧ t.trace = readEvent 0x01 w :: s.trace) ∧
        (w.getLsbD 15 = false → s.build.maxPolls = some (polls + 1) →
          Ended t s.session.calls .timeout ∧ t.trace = readEvent 0x01 w :: s.trace) ∧
        (w.getLsbD 15 = false → s.build.maxPolls ≠ some (polls + 1) → deadline = some (polls + 1) →
          Ended t s.session.calls .abandoned ∧ t.trace = readEvent 0x01 w :: s.trace) ∧
        (w.getLsbD 15 = false → s.build.maxPolls ≠ some (polls + 1) → deadline ≠ some (polls + 1) →
          t.session = { s.session with phase := .poll (polls + 1) deadline } ∧
          t.trace = .slept (sampleRate s.build.drSps s.cfg.dr) :: readEvent 0x01 w :: s.trace)) ∧
    (s.readAnswer .configuration = none →
      ∃ t, Reaches 1 s t ∧ t.cfg = s.cfg ∧ Ended t s.session.calls (.failed .transportError) ∧
        t.trace = .read 0x01 none :: s.trace)

/-- R178, S14: whatever the number of steps, what earlier calls returned, and the calls queued behind it (not yet taken up), a
`one_shot_conversion()` that has ended with a reading made exactly one configuration write, with bit 15 set, then configuration reads with a sleep between each two, then exactly one
conversion read. -/
def Obligations.OneShotBusTrace : Prop :=
  ∀ s deadline rest k t raw q, Calling s (.oneShot deadline) rest →
    Reaches k s t → t.session.calls = rest → t.session.phase = .idle → t.session.result = some (.reading raw q) →
    ∃ polls hi lo v, t.trace = readEvent 0x00 v :: (polls ++ .wrote 0x01 hi lo true :: s.trace) ∧
      pollEvents polls = true ∧ hi.getLsbD 7 = true

/-- R178, R220: under the premise that every operation is delivered and the chip completes at some poll before the bound,
`one_shot_conversion()` returns what CONV makes of the word drawn for the conversion register, with three steps for the start,
three for each poll and three for the reading. -/
def Obligations.OneShotCompletes : Prop :=
  ∀ s rest start busy done conv ds, Calling s (.oneShot none) rest →
    s.draws = start :: (busy ++ done :: conv :: ds) →
    start.ok = true → (∀ d ∈ busy, Finds true d) → Finds false done → conv.ok = true →
    (∀ n, s.build.maxPolls = some n → busy.length < n) →
    ∃ t u r, exec (.conv none conv.regs.conversion) s = .next u ∧ u.response = some r ∧
      Reaches (9 + 3 * busy.length) s t ∧ t.cfg = s.cfg ∧ t.draws = ds ∧ Ended t rest (.reading r.raw12 r.scaledQ3)

/-- R178: with `MAX_POLLS` = n and a chip that is converting at each of n polls, `one_shot_conversion()` ends with Timeout. -/
def Obligations.OneShotTimesOut : Prop :=
  ∀ s rest start busy ds, Calling s (.oneShot none) rest → s.draws = start :: (busy ++ ds) →
    start.ok = true → (∀ d ∈ busy, Finds true d) → 0 < busy.length → s.build.maxPolls = some busy.length →
    ∃ t, Reaches (3 + 3 * busy.length) s t ∧ t.cfg = s.cfg ∧ t.draws = ds ∧ Ended t rest .timeout

/-- R44-R46, R43: the three transport primitives, one step each: the bytes of a write go out in their order (any two bytes, log
entry 26); a read of the register the pointer selects answers the word found there, `b0 << 8 | b1` of its two
bytes; the general call sends 0x00 and 0x06; each ends with the transport's outcome. -/
def Obligations.TransportPrimitives : Prop :=
  (∀ s ptr b0 b1 rest, Calling s (.writeReg ptr [b0, b1]) rest → pointerRefusal s.build.profile ptr = none →
    ∃ t, step s = .next t ∧ t.cfg = s.cfg ∧ Ended t rest (if s.draw.ok then .done else .failed .transportError) ∧
      t.trace = .wrote ptr b0 b1 s.draw.ok :: s.trace) ∧
  (∀ s ptr rest, Calling s (.readReg ptr 2) rest → pointerRefusal s.build.profile ptr = none →
    ∃ t, step s = .next t ∧ t.cfg = s.cfg ∧
      ((∃ b0 b1 : Byte,
          s.readAnswer (ChipReg.ofPointer (ptr.setWidth 2)) = some (b0.setWidth 16 <<< 8 ||| b1.setWidth 16) ∧
          Ended t rest (.word (b0.setWidth 16 <<< 8 ||| b1.setWidth 16)) ∧
          t.trace = .read ptr (some (b0, b1)) :: s.trace ∧ s.draw.ok = true) ∨
        (s.readAnswer (ChipReg.ofPointer (ptr.setWidth 2)) = none ∧
          Ended t rest (.failed .transportError) ∧ t.trace = .read ptr none :: s.trace ∧ s.draw.ok = false))) ∧
  (∀ s rest, Calling s .generalCall rest →
    ∃ t, step s = .next t ∧ t.cfg = s.cfg ∧ Ended t rest (if s.draw.ok then .done else .failed .transportError) ∧
      t.trace = .generalCall 0x00 0x06 s.draw.ok :: s.trace)

/-- R49, S15, R223: after a general call that was delivered, the configuration read that follows decodes to the profile's
defaults, but that OS, and so `busy?()`, is what the chip says if a conversion was in flight at the call (how the two rules
meet, and that later reads are draws, is log entry 10). -/
def Obligations.GeneralCallLeavesDefaults : Prop :=
  ∀ s rest d e ds, s.draws = d :: e :: ds → d.ok = true → e.ok = true →
    (Calling s .generalReset (.configRead :: rest) →
      ∃ t valid out, Reaches 6 s t ∧ Ended t rest (.symbols valid out) ∧
        ∀ f, valid.getLsbD f.index = has s.build.profile f ∧
          out.extractLsb' (3 * f.index) 3 =
            if f = .os ∧ stillInFlight s d e then 1 else if has s.build.profile f then defaults.get f else 0) ∧
    (Calling s .generalReset (.isBusy :: rest) →
      ∃ t, Reaches 6 s t ∧ Ended t rest (.busy (stillInFlight s d e)))

/-- R49, R172: a delivered configuration write with bit 15 set, to a chip that is not converting, begins a conversion
(log entry 11). -/
def Obligations.StartWriteBeginsConversion : Prop :=
  ∀ (s : State) (w : Word), s.draw.ok = true → w.getLsbD 15 = true → s.chip.converting = false →
    (s.afterWrite .configuration w).chip.converting = true

/-- R41, R42, R47, R48: what the host has no move for: a write of one byte, an access of any other length than 2, a pointer
above 0x03, and a threshold pointer on `base` (the names, and which is looked at first: log entry 16). -/
def Obligations.HostAccessesRefused : Prop :=
  (∀ s ptr b rest, Calling s (.writeReg ptr [b]) rest → step s = .refused .oneByteWrite) ∧
  (∀ s ptr bytes rest, Calling s (.writeReg ptr bytes) rest → bytes.length ≠ 1 → bytes.length ≠ 2 →
    step s = .refused .accessLength) ∧
  (∀ s ptr n rest, Calling s (.readReg ptr n) rest → n ≠ 2 → step s = .refused .accessLength) ∧
  (∀ s c rest ptr, Calling s c rest → (c = .readReg ptr 2 ∨ ∃ b0 b1, c = .writeReg ptr [b0, b1]) →
    (3 < ptr.toNat → step s = .refused .noSuchPointer) ∧
    (ptr = 2 ∨ ptr = 3 → s.build.profile = .base → step s = .refused .thresholdOnBase) ∧
    (ptr.toNat ≤ 1 ∨ ptr.toNat ≤ 3 ∧ s.build.profile ≠ .base → ∃ t, step s = .next t))

/-- The two ends of `one_shot_conversion()`, whatever its deadline (R178, R179). A lost start write and a failed conversion read
each end the call with `TransportError`, `CFG` kept and nothing retried: the operation that failed is the last one made. (A
failed poll read: PollRound.) After a delivered start write the first poll is due, and a conversion read that gives a word
ends the call with what CONV answers of it, with the gain of `CFG`. -/
def Obligations.OneShotTransportErrors : Prop :=
  (∀ s deadline rest, Calling s (.oneShot deadline) rest →
    ∃ t u r, exec .start s = .next u ∧ u.response = some r ∧ Reaches 3 s t ∧ t.port = [] ∧ t.cfg = s.cfg ∧
      t.trace = .wrote 0x01 (r.wordOut.extractLsb' 8 8) (r.wordOut.extractLsb' 0 8) s.draw.ok :: s.trace ∧
      (s.draw.ok = false → Ended t rest (.failed .transportError)) ∧
      (s.draw.ok = true → t.session = { s.session with calls := rest, phase := .poll 0 deadline })) ∧
  (∀ s, s.port = [] → s.session.phase = .shotRead →
    (∀ w, s.readAnswer .conversion = some w →
      ∃ t u r, exec (.conv none w) s = .next u ∧ u.response = some r ∧ Reaches 3 s t ∧ t.cfg = s.cfg ∧
        Ended t s.session.calls (.reading r.raw12 r.scaledQ3) ∧ t.trace = readEvent 0x00 w :: s.trace) ∧
    (s.readAnswer .conversion = none →
      ∃ t, Reaches 1 s t ∧ t.cfg = s.cfg ∧ Ended t s.session.calls (.failed .transportError) ∧
        t.trace = .read 0x00 none :: s.trace))

/-- R181, R215: a single command. BUSY is refused, since its word was not read live (and so under this name even where a
reserved bit is set: log entry 23). Any other decodable command runs once, and the
host writes nothing. It makes the general call that RESET asks for, the one thing it may not drop, and ends with that call's
outcome (what the caller gets back there is the model's choice); for every other command it ends with the response. Any other
word that is no command stops at the codec block (log entry 15). -/
def Obligations.SingleCommand : Prop :=
  ∀ s w rest, Calling s (.command w) rest →
    (opField w = 5 → step s = .refused .busyWordNotLive) ∧
    (opField w ≠ 5 →
      (∀ why, decode w = .refused why → ∃ t, step s = .next t ∧ step t = .refused (refusalOf why)) ∧
      ∀ i, decode w = .instr i →
        ∃ t u r, exec i s = .next u ∧ u.response = some r ∧ Reaches 3 s t ∧ t.cfg = u.cfg ∧
          (i ≠ .reset → Ended t rest (.response r) ∧ t.trace = s.trace) ∧
          (i = .reset → Ended t rest (if s.draw.ok then .done else .failed .transportError) ∧
            t.trace = .generalCall 0x00 0x06 s.draw.ok :: s.trace))
end

