-- ==== Sys2Proof/Laws/Slots.lean ====
section
/-! SUPPORT. The nine-slot record: reading a slot, and two records with equal slots are equal. -/

namespace Sys2Proof

@[simp] theorem Slots.get_ofFn {α : Type} (g : Field → α) (f : Field) : (Slots.ofFn g).get f = g f := by
  cases f <;> rfl

theorem Slots.ext_get {α : Type} {s t : Slots α} (h : ∀ f, s.get f = t.get f) : s = t := by
  have e : ∀ u : Slots α, u = Slots.ofFn u.get := fun _ => rfl
  rw [e s, e t]
  congr 1
  exact funext h

theorem Field.mem_all (f : Field) : f ∈ Field.all := by cases f <;> decide

theorem Field.index_inj {f g : Field} (h : f.index = g.index) : f = g := by
  cases f <;> cases g <;> first | rfl | cases h

/-- A property of every field is nine properties. -/
theorem Field.forall_iff {p : Field → Prop} :
    (∀ f, p f) ↔ p .os ∧ p .mux ∧ p .pga ∧ p .mode ∧ p .dr ∧ p .cmode ∧ p .cpol ∧ p .clat ∧ p .cque :=
  ⟨fun h => ⟨h _, h _, h _, h _, h _, h _, h _, h _, h _⟩,
   fun ⟨h0, h1, h2, h3, h4, h5, h6, h7, h8⟩ f => by cases f <;> assumption⟩

/-- The first field, in index order, with a property. -/
theorem Field.find?_all {p : Field → Bool} {f : Field} (h : Field.all.find? p = some f) :
    p f = true ∧ ∀ g, p g = true → f.index ≤ g.index := by
  have hall := List.find?_eq_some_iff_append.mp h
  obtain ⟨hp, as, bs, hab, has⟩ := hall
  refine ⟨by simpa using hp, fun g hg => ?_⟩
  have hmem : g ∈ as ++ f :: bs := hab ▸ Field.mem_all g
  have hsorted : (Field.all.map Field.index).Pairwise (· < ·) := by decide
  rcases List.mem_append.mp hmem with h1 | h1
  · have := has g h1
    simp [hg] at this
  · rcases List.mem_cons.mp h1 with rfl | h2
    · exact Nat.le_refl _
    · rw [hab, List.map_append, List.map_cons] at hsorted
      have := (List.pairwise_append.mp hsorted).2.1
      exact Nat.le_of_lt ((List.pairwise_cons.mp this).1 _ (List.mem_map_of_mem h2))

theorem Field.find?_all_none {p : Field → Bool} (h : Field.all.find? p = none) (f : Field) : p f = false := by
  have := List.find?_eq_none.mp h f (Field.mem_all f)
  simpa using this

end Sys2Proof
end

