-- ==== Sys2Proof/Laws/State.lean ====
section
/-! SUPPORT. What each update of State leaves in each field. -/

namespace Sys2Proof.Machine

variable (s : State)

@[simp] theorem State.respond_build (r : Response) : (s.respond r).build = s.build := rfl
@[simp] theorem State.respond_cfg (r : Response) : (s.respond r).cfg = s.cfg := rfl
@[simp] theorem State.respond_port (r : Response) : (s.respond r).port = s.port := rfl
@[simp] theorem State.respond_response (r : Response) : (s.respond r).response = some r := rfl
@[simp] theorem State.respond_session (r : Response) : (s.respond r).session = s.session := rfl
@[simp] theorem State.respond_chip (r : Response) : (s.respond r).chip = s.chip := rfl
@[simp] theorem State.respond_draws (r : Response) : (s.respond r).draws = s.draws := rfl
@[simp] theorem State.respond_drawn (r : Response) : (s.respond r).drawn = s.drawn := rfl
@[simp] theorem State.respond_trace (r : Response) : (s.respond r).trace = s.trace := rfl

@[simp] theorem State.raise_build (p : Problem) : (s.raise p).build = s.build := rfl
@[simp] theorem State.raise_cfg (p : Problem) : (s.raise p).cfg = s.cfg := rfl
@[simp] theorem State.raise_port (p : Problem) : (s.raise p).port = s.port := rfl
@[simp] theorem State.raise_response (p : Problem) : (s.raise p).response = some { status := p.status, errField := p.errField } := rfl
@[simp] theorem State.raise_session (p : Problem) : (s.raise p).session = s.session := rfl
@[simp] theorem State.raise_chip (p : Problem) : (s.raise p).chip = s.chip := rfl
@[simp] theorem State.raise_draws (p : Problem) : (s.raise p).draws = s.draws := rfl
@[simp] theorem State.raise_drawn (p : Problem) : (s.raise p).drawn = s.drawn := rfl
@[simp] theorem State.raise_trace (p : Problem) : (s.raise p).trace = s.trace := rfl

@[simp] theorem State.commit_build (m : Slots Sym) : (s.commit m).build = s.build := rfl
@[simp] theorem State.commit_cfg (m : Slots Sym) : (s.commit m).cfg = Slots.ofFn fun f => if f ≠ .os ∧ has s.build.profile f then m.get f else s.cfg.get f := rfl
@[simp] theorem State.commit_port (m : Slots Sym) : (s.commit m).port = s.port := rfl
@[simp] theorem State.commit_response (m : Slots Sym) : (s.commit m).response = s.response := rfl
@[simp] theorem State.commit_session (m : Slots Sym) : (s.commit m).session = s.session := rfl
@[simp] theorem State.commit_chip (m : Slots Sym) : (s.commit m).chip = s.chip := rfl
@[simp] theorem State.commit_draws (m : Slots Sym) : (s.commit m).draws = s.draws := rfl
@[simp] theorem State.commit_drawn (m : Slots Sym) : (s.commit m).drawn = s.drawn := rfl
@[simp] theorem State.commit_trace (m : Slots Sym) : (s.commit m).trace = s.trace := rfl

@[simp] theorem State.restoreDefaults_build : (s.restoreDefaults).build = s.build := rfl
@[simp] theorem State.restoreDefaults_cfg : (s.restoreDefaults).cfg = defaults := rfl
@[simp] theorem State.restoreDefaults_port : (s.restoreDefaults).port = s.port := rfl
@[simp] theorem State.restoreDefaults_response : (s.restoreDefaults).response = s.response := rfl
@[simp] theorem State.restoreDefaults_session : (s.restoreDefaults).session = s.session := rfl
@[simp] theorem State.restoreDefaults_chip : (s.restoreDefaults).chip = s.chip := rfl
@[simp] theorem State.restoreDefaults_draws : (s.restoreDefaults).draws = s.draws := rfl
@[simp] theorem State.restoreDefaults_drawn : (s.restoreDefaults).drawn = s.drawn := rfl
@[simp] theorem State.restoreDefaults_trace : (s.restoreDefaults).trace = s.trace := rfl

@[simp] theorem State.issue_build (w : Command) : (s.issue w).build = s.build := rfl
@[simp] theorem State.issue_cfg (w : Command) : (s.issue w).cfg = s.cfg := rfl
@[simp] theorem State.issue_port (w : Command) : (s.issue w).port = [w] := rfl
@[simp] theorem State.issue_response (w : Command) : (s.issue w).response = none := rfl
@[simp] theorem State.issue_session (w : Command) : (s.issue w).session = s.session := rfl
@[simp] theorem State.issue_chip (w : Command) : (s.issue w).chip = s.chip := rfl
@[simp] theorem State.issue_draws (w : Command) : (s.issue w).draws = s.draws := rfl
@[simp] theorem State.issue_drawn (w : Command) : (s.issue w).drawn = s.drawn := rfl
@[simp] theorem State.issue_trace (w : Command) : (s.issue w).trace = s.trace := rfl

@[simp] theorem State.goto_build (p : Phase) : (s.goto p).build = s.build := rfl
@[simp] theorem State.goto_cfg (p : Phase) : (s.goto p).cfg = s.cfg := rfl
@[simp] theorem State.goto_port (p : Phase) : (s.goto p).port = s.port := rfl
@[simp] theorem State.goto_response (p : Phase) : (s.goto p).response = s.response := rfl
@[simp] theorem State.goto_session (p : Phase) : (s.goto p).session = { s.session with phase := p } := rfl
@[simp] theorem State.goto_chip (p : Phase) : (s.goto p).chip = s.chip := rfl
@[simp] theorem State.goto_draws (p : Phase) : (s.goto p).draws = s.draws := rfl
@[simp] theorem State.goto_drawn (p : Phase) : (s.goto p).drawn = s.drawn := rfl
@[simp] theorem State.goto_trace (p : Phase) : (s.goto p).trace = s.trace := rfl

@[simp] theorem State.finish_build (r : CallResult) : (s.finish r).build = s.build := rfl
@[simp] theorem State.finish_cfg (r : CallResult) : (s.finish r).cfg = s.cfg := rfl
@[simp] theorem State.finish_port (r : CallResult) : (s.finish r).port = s.port := rfl
@[simp] theorem State.finish_response (r : CallResult) : (s.finish r).response = s.response := rfl
@[simp] theorem State.finish_session (r : CallResult) : (s.finish r).session = { s.session with phase := .idle, result := some r } := rfl
@[simp] theorem State.finish_chip (r : CallResult) : (s.finish r).chip = s.chip := rfl
@[simp] theorem State.finish_draws (r : CallResult) : (s.finish r).draws = s.draws := rfl
@[simp] theorem State.finish_drawn (r : CallResult) : (s.finish r).drawn = s.drawn := rfl
@[simp] theorem State.finish_trace (r : CallResult) : (s.finish r).trace = s.trace := rfl

@[simp] theorem State.takeCall_build (rest : List Call) : (s.takeCall rest).build = s.build := rfl
@[simp] theorem State.takeCall_cfg (rest : List Call) : (s.takeCall rest).cfg = s.cfg := rfl
@[simp] theorem State.takeCall_port (rest : List Call) : (s.takeCall rest).port = s.port := rfl
@[simp] theorem State.takeCall_response (rest : List Call) : (s.takeCall rest).response = s.response := rfl
@[simp] theorem State.takeCall_session (rest : List Call) : (s.takeCall rest).session = { s.session with calls := rest } := rfl
@[simp] theorem State.takeCall_chip (rest : List Call) : (s.takeCall rest).chip = s.chip := rfl
@[simp] theorem State.takeCall_draws (rest : List Call) : (s.takeCall rest).draws = s.draws := rfl
@[simp] theorem State.takeCall_drawn (rest : List Call) : (s.takeCall rest).drawn = s.drawn := rfl
@[simp] theorem State.takeCall_trace (rest : List Call) : (s.takeCall rest).trace = s.trace := rfl

@[simp] theorem State.askWord_build (w : Command) (p : Phase) : (s.askWord w p).build = s.build := rfl
@[simp] theorem State.askWord_cfg (w : Command) (p : Phase) : (s.askWord w p).cfg = s.cfg := rfl
@[simp] theorem State.askWord_port (w : Command) (p : Phase) : (s.askWord w p).port = [w] := rfl
@[simp] theorem State.askWord_response (w : Command) (p : Phase) : (s.askWord w p).response = none := rfl
@[simp] theorem State.askWord_session (w : Command) (p : Phase) : (s.askWord w p).session = { s.session with phase := p } := rfl
@[simp] theorem State.askWord_chip (w : Command) (p : Phase) : (s.askWord w p).chip = s.chip := rfl
@[simp] theorem State.askWord_draws (w : Command) (p : Phase) : (s.askWord w p).draws = s.draws := rfl
@[simp] theorem State.askWord_drawn (w : Command) (p : Phase) : (s.askWord w p).drawn = s.drawn := rfl
@[simp] theorem State.askWord_trace (w : Command) (p : Phase) : (s.askWord w p).trace = s.trace := rfl

@[simp] theorem State.ask_build (i : Instr) (p : Phase) : (s.ask i p).build = s.build := rfl
@[simp] theorem State.ask_cfg (i : Instr) (p : Phase) : (s.ask i p).cfg = s.cfg := rfl
@[simp] theorem State.ask_port (i : Instr) (p : Phase) : (s.ask i p).port = [encode i] := rfl
@[simp] theorem State.ask_response (i : Instr) (p : Phase) : (s.ask i p).response = none := rfl
@[simp] theorem State.ask_session (i : Instr) (p : Phase) : (s.ask i p).session = { s.session with phase := p } := rfl
@[simp] theorem State.ask_chip (i : Instr) (p : Phase) : (s.ask i p).chip = s.chip := rfl
@[simp] theorem State.ask_draws (i : Instr) (p : Phase) : (s.ask i p).draws = s.draws := rfl
@[simp] theorem State.ask_drawn (i : Instr) (p : Phase) : (s.ask i p).drawn = s.drawn := rfl
@[simp] theorem State.ask_trace (i : Instr) (p : Phase) : (s.ask i p).trace = s.trace := rfl

@[simp] theorem State.log_build (e : Event) : (s.log e).build = s.build := rfl
@[simp] theorem State.log_cfg (e : Event) : (s.log e).cfg = s.cfg := rfl
@[simp] theorem State.log_port (e : Event) : (s.log e).port = s.port := rfl
@[simp] theorem State.log_response (e : Event) : (s.log e).response = s.response := rfl
@[simp] theorem State.log_session (e : Event) : (s.log e).session = s.session := rfl
@[simp] theorem State.log_chip (e : Event) : (s.log e).chip = s.chip := rfl
@[simp] theorem State.log_draws (e : Event) : (s.log e).draws = s.draws := rfl
@[simp] theorem State.log_drawn (e : Event) : (s.log e).drawn = s.drawn := rfl
@[simp] theorem State.log_trace (e : Event) : (s.log e).trace = e :: s.trace := rfl

@[simp] theorem State.afterDraw_build : s.afterDraw.build = s.build := by
  unfold State.afterDraw; split <;> rfl
@[simp] theorem State.afterDraw_cfg : s.afterDraw.cfg = s.cfg := by
  unfold State.afterDraw; split <;> rfl
@[simp] theorem State.afterDraw_port : s.afterDraw.port = s.port := by
  unfold State.afterDraw; split <;> rfl
@[simp] theorem State.afterDraw_response : s.afterDraw.response = s.response := by
  unfold State.afterDraw; split <;> rfl
@[simp] theorem State.afterDraw_session : s.afterDraw.session = s.session := by
  unfold State.afterDraw; split <;> rfl
@[simp] theorem State.afterDraw_chip : s.afterDraw.chip = s.chip := by
  unfold State.afterDraw; split <;> rfl
@[simp] theorem State.afterDraw_trace : s.afterDraw.trace = s.trace := by
  unfold State.afterDraw; split <;> rfl
@[simp] theorem State.afterDraw_draws : s.afterDraw.draws = s.draws.tail := by
  unfold State.afterDraw; split <;> simp_all

@[simp] theorem State.afterRead_build (reg : ChipReg) : (s.afterRead reg).build = s.build := by
  simp [State.afterRead]
@[simp] theorem State.afterRead_cfg (reg : ChipReg) : (s.afterRead reg).cfg = s.cfg := by
  simp [State.afterRead]
@[simp] theorem State.afterRead_port (reg : ChipReg) : (s.afterRead reg).port = s.port := by
  simp [State.afterRead]
@[simp] theorem State.afterRead_response (reg : ChipReg) : (s.afterRead reg).response = s.response := by
  simp [State.afterRead]
@[simp] theorem State.afterRead_session (reg : ChipReg) : (s.afterRead reg).session = s.session := by
  simp [State.afterRead]
@[simp] theorem State.afterRead_draws (reg : ChipReg) : (s.afterRead reg).draws = s.draws.tail := by
  simp [State.afterRead]

@[simp] theorem State.afterWrite_build (reg : ChipReg) (w : Word) : (s.afterWrite reg w).build = s.build := by
  simp [State.afterWrite]
@[simp] theorem State.afterWrite_cfg (reg : ChipReg) (w : Word) : (s.afterWrite reg w).cfg = s.cfg := by
  simp [State.afterWrite]
@[simp] theorem State.afterWrite_port (reg : ChipReg) (w : Word) : (s.afterWrite reg w).port = s.port := by
  simp [State.afterWrite]
@[simp] theorem State.afterWrite_response (reg : ChipReg) (w : Word) : (s.afterWrite reg w).response = s.response := by
  simp [State.afterWrite]
@[simp] theorem State.afterWrite_session (reg : ChipReg) (w : Word) : (s.afterWrite reg w).session = s.session := by
  simp [State.afterWrite]
@[simp] theorem State.afterWrite_draws (reg : ChipReg) (w : Word) : (s.afterWrite reg w).draws = s.draws.tail := by
  simp [State.afterWrite]

@[simp] theorem State.afterGeneralCall_build : (s.afterGeneralCall).build = s.build := by
  simp [State.afterGeneralCall]
@[simp] theorem State.afterGeneralCall_cfg : (s.afterGeneralCall).cfg = s.cfg := by
  simp [State.afterGeneralCall]
@[simp] theorem State.afterGeneralCall_port : (s.afterGeneralCall).port = s.port := by
  simp [State.afterGeneralCall]
@[simp] theorem State.afterGeneralCall_response : (s.afterGeneralCall).response = s.response := by
  simp [State.afterGeneralCall]
@[simp] theorem State.afterGeneralCall_session : (s.afterGeneralCall).session = s.session := by
  simp [State.afterGeneralCall]
@[simp] theorem State.afterGeneralCall_draws : (s.afterGeneralCall).draws = s.draws.tail := by
  simp [State.afterGeneralCall]

@[simp] theorem State.afterRead_trace (reg : ChipReg) :
    (s.afterRead reg).trace =
      .read (pointerByte reg) ((s.readAnswer reg).map fun w : Word => (w.high, w.low)) :: s.trace := by
  simp [State.afterRead]
@[simp] theorem State.afterWrite_trace (reg : ChipReg) (w : Word) :
    (s.afterWrite reg w).trace = .wrote (pointerByte reg) w.high w.low s.draw.ok :: s.trace := by
  simp [State.afterWrite]
@[simp] theorem State.afterGeneralCall_trace :
    s.afterGeneralCall.trace = .generalCall generalCallAddress generalCallCommand s.draw.ok :: s.trace := by
  simp [State.afterGeneralCall]
@[simp] theorem State.afterGeneralCall_chip :
    s.afterGeneralCall.chip =
      { regs := if s.draw.ok then s.chip.contentsAtDefaults s.build.profile s.draw.regs else s.draw.regs
        atDefaults := s.draw.ok } := rfl
@[simp] theorem Chip.contents_of_draw {c : Chip} (h : c.atDefaults = false) (p : Profile) (r : ChipRegs) :
    c.contents p r = r := by simp [Chip.contents, h]
@[simp] theorem Chip.contents_after_call {c : Chip} (h : c.atDefaults = true) (p : Profile) (r : ChipRegs) :
    c.contents p r = c.contentsAtDefaults p r := by simp [Chip.contents, h]
@[simp] theorem State.afterRead_atDefaults (reg : ChipReg) : (s.afterRead reg).chip.atDefaults = false := rfl
@[simp] theorem State.afterWrite_atDefaults (reg : ChipReg) (w : Word) :
    (s.afterWrite reg w).chip.atDefaults = false := rfl

end Sys2Proof.Machine
end

