-- ==== Sys2Proof/Laws/Exec.lean ====
section
/-! SUPPORT. Everything a command can do, said once: `exec_eq` gives the response and the new `CFG` of every command as
functions of the build and `CFG` alone. -/

namespace Sys2Proof.Machine

/-- The response that reports an error. -/
def Problem.response (p : Problem) : Response := { status := p.status, errField := p.errField }

/-- A checked answer: the error, or the response. -/
def checked (p : Option Problem) (r : Response) : Response := p.elim r Problem.response

/-- The response of a command. -/
def responseTo (b : Build) (cfg : Slots Sym) : Instr → Response
  | .encode given => checked (encodeProblem b given) { wordOut := encWord b (encodeSymbols given) }
  | .decode data => { symValid := packValid (decWord b data), symOut := packSymbols (decWord b data) }
  | .update given =>
    checked (gate b given) { wordOut := encWord b (mergeSymbols cfg given), wrValid := true, wrPtr := 1 }
  | .start => { wordOut := encWord b (startSymbols cfg), wrValid := true, wrPtr := 1 }
  | .busy data => { busy := decCode b.drTable .os (code .os data) = 1 }
  | .reset => { gcReq := true }
  | .conv gain data =>
    checked (gainProblem b gain)
      { raw12 := BitVec.ofInt 12 (rawSample data), scaledQ3 := scaled (rawSample data) (convMult b cfg gain) }
  | .setth reg data =>
    checked (thresholdProblem b reg data.toInt)
      { wordOut := thresholdWord data.toInt, wrValid := true, wrPtr := reg.pointer }
  | .getth reg data => checked (registerProblem b reg) { thValue := data.extractLsb' 4 12 }

/-- The `CFG` a command leaves. -/
def cfgAfter (b : Build) (cfg : Slots Sym) : Instr → Slots Sym
  | .update given =>
    if gate b given = none then
      Slots.ofFn fun f => if f ≠ .os ∧ has b.profile f then (mergeSymbols cfg given).get f else cfg.get f
    else cfg
  | .reset => defaults
  | .encode _ | .decode _ | .start | .busy _ | .conv _ _ | .setth _ _ | .getth _ _ => cfg

/-- The inversion lemma of `exec`: no command stops, and it writes `CFG` and the response only. -/
theorem exec_eq (i : Instr) (s : State) :
    exec i s =
      .next { s with cfg := cfgAfter s.build s.cfg i, response := some (responseTo s.build s.cfg i) } := by
  cases i with
  | encode given => simp only [exec, execEncode, responseTo, cfgAfter]; cases encodeProblem s.build given <;> rfl
  | update given => simp only [exec, execUpdate, responseTo, cfgAfter]; cases gate s.build given <;> rfl
  | conv gain data => simp only [exec, execConv, responseTo, cfgAfter]; cases gainProblem s.build gain <;> rfl
  | setth reg data =>
    simp only [exec, execSetth, responseTo, cfgAfter]; cases thresholdProblem s.build reg data.toInt <;> rfl
  | getth reg data => simp only [exec, execGetth, responseTo, cfgAfter]; cases registerProblem s.build reg <;> rfl
  | decode _ => rfl
  | start => rfl
  | busy _ => rfl
  | reset => rfl

end Sys2Proof.Machine
end

