-- ==== Sys2Proof/Laws/Words.lean ====
section
/-! SUPPORT. The places of a command word's operands do not overlap: what one operand puts into another's bits is 0. -/

namespace Sys2Proof

theorem getLsbD_place {n : Nat} (v : BitVec n) (lo k : Nat) :
    (place v lo).getLsbD k = (decide (k < 64) && decide (lo ≤ k) && v.getLsbD (k - lo)) := by
  simp only [place, BitVec.getLsbD_shiftLeft, BitVec.getLsbD_setWidth]
  by_cases h' : lo ≤ k
  · by_cases h : k < 64
    · have h2 : k - lo < 64 := by omega
      simp [h, h2, Nat.not_lt.mpr h', h']
    · simp [h]
  · simp [Nat.lt_of_not_le h', h']

theorem opField_placeField (f : Field) (o : Option Sym) : opField (placeField f o) = 0 := by
  cases o with
  | none => rfl
  | some sym => cases f <;> revert sym <;> decide

theorem reserved_placeField (f : Field) (o : Option Sym) : placeField f o &&& reservedMask = 0 := by
  cases o with
  | none => cases f <;> decide
  | some sym => cases f <;> revert sym <;> decide

theorem presentField_placeField (f g : Field) (o : Option Sym) :
    presentField (placeField f o) g = (decide (f = g) && o.isSome) := by
  cases o with
  | none => simp [presentField, placeField]
  | some sym => cases f <;> cases g <;> revert sym <;> decide

theorem symField_placeField (f g : Field) (o : Option Sym) :
    symField (placeField f o) g = if f = g then o.getD 0 else 0 := by
  cases o with
  | none => simp [symField, placeField]
  | some sym => cases f <;> cases g <;> revert sym <;> decide

@[simp] theorem opField_or (v w : Command) : opField (v ||| w) = opField v ||| opField w := by
  simp [opField, BitVec.extractLsb'_or]

@[simp] theorem ptrField_or (v w : Command) : ptrField (v ||| w) = ptrField v ||| ptrField w := by
  simp [ptrField, BitVec.extractLsb'_or]

@[simp] theorem presentField_or (v w : Command) (f : Field) :
    presentField (v ||| w) f = (presentField v f || presentField w f) := by
  simp [presentField]

@[simp] theorem symField_or (v w : Command) (f : Field) : symField (v ||| w) f = symField v f ||| symField w f := by
  simp [symField, BitVec.extractLsb'_or]

@[simp] theorem dataField_or (v w : Command) : dataField (v ||| w) = dataField v ||| dataField w := by
  simp [dataField, BitVec.extractLsb'_or]

theorem reserved_or {v w : Command} (hv : v &&& reservedMask = 0) (hw : w &&& reservedMask = 0) :
    (v ||| w) &&& reservedMask = 0 := by
  apply BitVec.eq_of_getLsbD_eq
  intro k _
  have h1 := congrArg (fun u : Command => u.getLsbD k) hv
  have h2 := congrArg (fun u : Command => u.getLsbD k) hw
  simp only [BitVec.getLsbD_and, BitVec.getLsbD_or, Bool.and_or_distrib_right] at *
  simp [h1, h2]

theorem opField_placeGiven (given : Given) : opField (placeGiven given) = 0 := by
  simp only [placeGiven, Field.all, List.foldr, opField_or, opField_placeField]; decide

theorem reserved_placeGiven (given : Given) : placeGiven given &&& reservedMask = 0 := by
  simp only [placeGiven, Field.all, List.foldr]
  repeat' apply reserved_or
  all_goals first | exact reserved_placeField _ _ | decide

theorem opField_place_data (data : Word) : opField (place data 48) = 0 := by
  apply BitVec.eq_of_getLsbD_eq
  intro k hk
  simp [opField, getLsbD_place, BitVec.getLsbD_extractLsb']
  omega

theorem reserved_place_data (data : Word) : place data 48 &&& reservedMask = 0 := by
  apply BitVec.eq_of_getLsbD_eq
  intro k hk
  simp only [BitVec.getLsbD_and, getLsbD_place]
  by_cases h : 48 ≤ k
  · have : reservedMask.getLsbD k = false := by
      interval_cases k <;> decide
    simp [this]
  · simp [h]

theorem dataField_place_data (data : Word) : dataField (place data 48) = data := by
  apply BitVec.eq_of_getLsbD_eq
  intro k hk
  simp [dataField, getLsbD_place, hk]
  omega

theorem opField_pointer (reg : ChipReg) : opField (place reg.pointer 4) = 0 := by cases reg <;> decide

theorem reserved_pointer (reg : ChipReg) : place reg.pointer 4 &&& reservedMask = 0 := by cases reg <;> decide

theorem opField_op (i : Instr) : opField (place i.op 0) = i.op :=
  (by decide : ∀ op : BitVec 4, opField (place op 0) = op) i.op

theorem reserved_op (i : Instr) : place i.op 0 &&& reservedMask = 0 :=
  (by decide : ∀ op : BitVec 4, place op 0 &&& reservedMask = 0) i.op

theorem opField_operands (i : Instr) : opField i.operands = 0 := by
  cases i with
  | encode given => exact opField_placeGiven given
  | update given => exact opField_placeGiven given
  | decode data => exact opField_place_data data
  | busy data => exact opField_place_data data
  | start => decide
  | reset => decide
  | conv gain data =>
    simp only [Instr.operands, opField_or, opField_placeField, opField_place_data]; decide
  | setth reg data => simp only [Instr.operands, opField_or, opField_pointer, opField_place_data]; decide
  | getth reg data => simp only [Instr.operands, opField_or, opField_pointer, opField_place_data]; decide

theorem reserved_operands (i : Instr) : i.operands &&& reservedMask = 0 := by
  cases i with
  | encode given => exact reserved_placeGiven given
  | update given => exact reserved_placeGiven given
  | decode data => exact reserved_place_data data
  | busy data => exact reserved_place_data data
  | start => decide
  | reset => decide
  | conv gain data => exact reserved_or (reserved_placeField _ _) (reserved_place_data _)
  | setth reg data => exact reserved_or (reserved_pointer _) (reserved_place_data _)
  | getth reg data => exact reserved_or (reserved_pointer _) (reserved_place_data _)

end Sys2Proof
end

