-- ==== Sys2Proof/Laws/PerInstr.lean ====
section
/-! SUPPORT. One fact about every instruction as syntax, a lemma per constructor: its command word is one the opcode table's
row for it matches. -/

namespace Sys2Proof.Laws.TableRow

/-- The mask every row of spec/opcode_table.json has: `op`, `rsv0` and `rsv1` (R67). -/
def mask : Command := 0x0000F8000000800F

/-- The word of `i` matches its row: `op` under the mask, and no reserved bit. -/
def Statement (i : Instr) : Prop := encode i &&& mask = i.op.setWidth 64

/-- A word whose `op` is known and whose reserved bits are 0. -/
theorem masked {w : Command} {op : BitVec 4} (hop : opField w = op) (hres : w &&& reservedMask = 0) :
    w &&& mask = op.setWidth 64 := by
  subst hop
  apply BitVec.eq_of_getLsbD_eq
  intro k hk
  have hr : (w &&& reservedMask).getLsbD k = false := by simp [hres]
  simp only [BitVec.getLsbD_and, opField, BitVec.getLsbD_setWidth, BitVec.getLsbD_extractLsb'] at *
  by_cases h4 : k < 4
  · have : mask.getLsbD k = true := by interval_cases k <;> decide
    simp [this, h4, hk]
  · have : mask.getLsbD k = reservedMask.getLsbD k := by interval_cases k <;> first | omega | decide
    simp [this, h4, hr]

theorem row_matches (i : Instr) : Statement i :=
  masked
    (by rw [encode, opField_or, opField_op, opField_operands]; simp)
    (reserved_or (reserved_op i) (reserved_operands i))

theorem encode (given : Given) : Statement (.encode given) := row_matches _
theorem decode (data : Word) : Statement (.decode data) := row_matches _
theorem update (given : Given) : Statement (.update given) := row_matches _
theorem start : Statement .start := row_matches _
theorem busy (data : Word) : Statement (.busy data) := row_matches _
theorem reset : Statement .reset := row_matches _
theorem conv (gain : Option Sym) (data : Word) : Statement (.conv gain data) := row_matches _
theorem setth (reg : ChipReg) (data : Word) : Statement (.setth reg data) := row_matches _
theorem getth (reg : ChipReg) (data : Word) : Statement (.getth reg data) := row_matches _

end Sys2Proof.Laws.TableRow
end

