-- ==== Sys2Proof/Laws/Session.lean ====
section
/-! SUPPORT. What the host's moves can do: each helper of a sequence, a call taken up, and a step of the host, as a list of
the states it may lead to; and a step, split into a command and a move of the host. -/

namespace Sys2Proof.Machine

/-- `ReadReg` either gives a word and the sequence goes on, or ends it. -/
theorem State.readThen_cases (s : State) (reg : ChipReg) (k : Word → State → State) :
    (∃ w, s.readAnswer reg = some w ∧ s.readThen reg k = k w (s.afterRead reg)) ∨
      (s.readAnswer reg = none ∧ s.readThen reg k = (s.afterRead reg).finish (.failed .transportError)) := by
  unfold State.readThen
  cases h : s.readAnswer reg with
  | some w => exact .inl ⟨w, rfl, rfl⟩
  | none => exact .inr ⟨rfl, rfl⟩

/-- `WriteReg` is delivered and the sequence goes on, or is not and ends it. -/
theorem State.writeThen_cases (s : State) (reg : ChipReg) (w : Word) (k : State → State) :
    (s.draw.ok = true ∧ s.writeThen reg w k = k (s.afterWrite reg w)) ∨
      (s.draw.ok = false ∧ s.writeThen reg w k = (s.afterWrite reg w).finish (.failed .transportError)) := by
  unfold State.writeThen
  cases h : s.draw.ok with
  | true => exact .inl ⟨rfl, rfl⟩
  | false => exact .inr ⟨rfl, rfl⟩

/-- The states a call taken up can lead to: a command issued, a sequence ended, or one transport operation made. -/
theorem beginCall_cases {c : Call} {s t : State} (h : beginCall c s = .next t) :
    (∃ w p, t = s.askWord w p) ∨ (∃ r, t = s.finish r) ∨
      (∃ (reg : ChipReg) (i : Word → Instr) (p : Phase), t = s.readThen reg fun w u => u.ask (i w) p) ∨
      (∃ reg, t = s.readThen reg fun w u => u.finish (.word w)) ∨
      (∃ reg w, t = s.writeThen reg w fun u => u.finish .done) ∨ t = s.callThenFinish := by
  cases c with
  | command w =>
    simp only [beginCall] at h
    split at h <;> cases h
    exact .inl ⟨_, _, rfl⟩
  | updateConfig g => cases h; exact .inl ⟨_, _, rfl⟩
  | requestOneShot => cases h; exact .inl ⟨_, _, rfl⟩
  | generalReset => cases h; exact .inl ⟨_, _, rfl⟩
  | oneShot d => cases h; exact .inl ⟨_, _, rfl⟩
  | isBusy => cases h; exact .inr (.inr (.inl ⟨_, _, _, rfl⟩))
  | conversionRead => cases h; exact .inr (.inr (.inl ⟨_, _, _, rfl⟩))
  | configRead => cases h; exact .inr (.inr (.inl ⟨_, _, _, rfl⟩))
  | setThreshold reg v =>
    simp only [beginCall] at h
    split at h <;> cases h
    · exact .inr (.inl ⟨_, rfl⟩)
    · exact .inl ⟨_, _, rfl⟩
  | getThreshold reg =>
    simp only [beginCall] at h
    split at h <;> cases h
    · exact .inr (.inl ⟨_, rfl⟩)
    · exact .inr (.inr (.inl ⟨_, _, _, rfl⟩))
  | writeReg ptr bytes =>
    simp only [beginCall] at h
    rcases bytes with _ | ⟨b0, _ | ⟨b1, _ | ⟨b2, more⟩⟩⟩
    · cases h
    · cases h
    · cases hp : pointerRefusal s.build.profile ptr with
      | some r => simp only [hp] at h; cases h
      | none => simp only [hp] at h; cases h; exact .inr (.inr (.inr (.inr (.inl ⟨_, _, rfl⟩))))
    · cases h
  | readReg ptr n =>
    simp only [beginCall] at h
    split at h
    · cases h
    · split at h <;> cases h
      exact .inr (.inr (.inr (.inl ⟨_, rfl⟩)))
  | generalCall => cases h; exact .inr (.inr (.inr (.inr (.inr rfl))))

/-- Taking up a call never faults. -/
theorem beginCall_no_fault (c : Call) (s : State) (e : Fault) : beginCall c s ≠ .fault e := by
  intro h
  cases c <;> simp only [beginCall] at h <;> (repeat' (split at h)) <;> cases h

/-- The inversion lemma of the host's step. -/
theorem sessionStep_cases {s t : State} (h : sessionStep s = .next t) :
    (s.session.phase = .idle ∧ s.session.calls = [] ∧ t = s) ∨
      (∃ c rest, s.session.phase = .idle ∧ s.session.calls = c :: rest ∧ beginCall c (s.takeCall rest) = .next t) ∨
      (∃ n d, s.session.phase = .poll n d ∧
        t = s.readThen .configuration fun w u => u.ask (.busy w) (.awaitPoll (n + 1) d)) ∨
      (s.session.phase = .shotRead ∧ t = s.readThen .conversion fun w u => u.ask (.conv none w) .awaitReading) ∨
      (∃ r, s.session.phase.awaits = true ∧ s.response = some r ∧ t = onResponse s.session.phase r s) := by
  unfold sessionStep at h
  split at h
  · rename_i hp
    split at h
    · rename_i hc; cases h; exact .inl ⟨hp, hc, rfl⟩
    · rename_i c rest hc; exact .inr (.inl ⟨c, rest, hp, hc, h⟩)
  · rename_i n d hp; cases h; exact .inr (.inr (.inl ⟨n, d, hp, rfl⟩))
  · rename_i hp; cases h; exact .inr (.inr (.inr (.inl ⟨hp, rfl⟩)))
  all_goals
    rename_i hp
    unfold awaitResponse at h
    split at h
    · rename_i r hr
      cases h
      exact .inr (.inr (.inr (.inr ⟨r, by rw [hp]; rfl, hr, by rw [hp]⟩)))
    · cases h

/-- A step is a command taken from the port, or a step of the host. -/
theorem step_cases (s : State) :
    (s.port = [] ∧ step s = sessionStep s) ∨
      (∃ w rest, s.port = w :: rest ∧
        ((∃ i, decode w = .instr i ∧ step s = exec i { s with port := rest }) ∨
          ∃ why, decode w = .refused why ∧ step s = .refused (refusalOf why))) := by
  unfold step fetch
  cases hp : s.port with
  | nil => exact .inl ⟨rfl, rfl⟩
  | cons w rest =>
    refine .inr ⟨w, rest, rfl, ?_⟩
    cases hd : decode w with
    | instr i => exact .inl ⟨i, rfl, by simp [hd]⟩
    | refused why => exact .inr ⟨why, rfl, by simp [hd]⟩

end Sys2Proof.Machine
end

