-- ==== Sys2Proof/Machine/Assembler.lean ====
section
/-! DEFINITION. The textual syntax of R88, its lines already cut into a mnemonic and operands: the names of keys, symbols and
registers, and the command word a line assembles to. There are no pseudo-instructions. -/

namespace Sys2Proof.Machine

/-- The key of a field (R88). -/
def keyName : Field → String
  | .os => "os" | .mux => "mux" | .pga => "pga" | .mode => "mode" | .dr => "dr"
  | .cmode => "cmode" | .cpol => "cpol" | .clat => "clat" | .cque => "cque"

/-- The symbols of a field, in index order (R73-R81). -/
def symbolNames : Field → List String
  | .os => ["not_converting", "converting", "start_one_shot"]
  | .mux => ["mux_code0", "mux_code1", "mux_code2", "mux_code3", "mux_code4", "mux_code5", "mux_code6", "mux_code7"]
  | .pga => ["fsr_6144", "fsr_4096", "fsr_2048", "fsr_1024", "fsr_512", "fsr_256"]
  | .mode => ["continuous", "one_shot"]
  | .dr => ["dr_code0", "dr_code1", "dr_code2", "dr_code3", "sps_1600", "dr_code5", "dr_max"]
  | .cmode => ["traditional", "window"]
  | .cpol => ["active_low", "active_high"]
  | .clat => ["non_latching", "latching"]
  | .cque => ["que_code0", "que_code1", "que_code2", "disabled"]

/-- The name of a register (R88). -/
def registerName : ChipReg → String
  | .conversion => "conv" | .configuration => "config" | .lowThreshold => "lo" | .highThreshold => "hi"

/-- The field a key names. -/
def fieldOfKey (key : String) : Option Field := Field.all.find? fun f => keyName f == key

/-- The symbol index a name has in a field. -/
def symOfName (f : Field) (name : String) : Option Sym :=
  ((symbolNames f).findIdx? (· == name)).map (BitVec.ofNat 3)

/-- The register a name stands for. -/
def registerOfName (name : String) : Option ChipReg :=
  [ChipReg.conversion, .configuration, .lowThreshold, .highThreshold].find? fun r => registerName r == name

/-- One operand of a line. -/
inductive AsmOperand where
  /-- `key=symbol`. -/
  | pair (key symbol : String)
  /-- A 16-bit hexadecimal literal. -/
  | word (w : Word)
  /-- A register name. -/
  | register (name : String)
  /-- A signed decimal. -/
  | value (v : Int)
deriving DecidableEq, Repr

/-- A nine-slot record with one slot replaced. -/
def setSlot (given : Given) (f : Field) (sym : Sym) : Given :=
  Slots.ofFn fun g => if g = f then some sym else given.get g

/-- The fields a list of `key=symbol` pairs gives; a field given twice, or an unknown key or symbol, is an error. -/
def assembleGiven : List AsmOperand → Option Given
  | [] => some (Slots.ofFn fun _ => none)
  | .pair key symbol :: rest =>
    match assembleGiven rest, fieldOfKey key with
    | some given, some f =>
      match symOfName f symbol, given.get f with
      | some sym, none => some (setSlot given f sym)
      | _, _ => none
    | _, _ => none
  | _ :: _ => none

/-- A threshold value that fits the port's 16 bits (R63, D27). -/
def assembleValue (v : Int) : Option Word :=
  if -32768 ≤ v ∧ v ≤ 32767 then some (BitVec.ofInt 16 v) else none

/-- The instruction of a line (R88). -/
def assembleInstr (mnemonic : String) (ops : List AsmOperand) : Option Instr :=
  match mnemonic, ops with
  | "ENCODE", ops => (assembleGiven ops).map .encode
  | "UPDATE", ops => (assembleGiven ops).map .update
  | "DECODE", [.word w] => some (.decode w)
  | "START", [] => some .start
  | "BUSY", [.word w] => some (.busy w)
  | "RESET", [] => some .reset
  | "CONV", [.word w] => some (.conv none w)
  | "CONV", [.word w, .pair "pga" symbol] => (symOfName .pga symbol).map fun sym => .conv (some sym) w
  | "SETTH", [.register name, .value v] =>
    match registerOfName name, assembleValue v with
    | some reg, some w => some (.setth reg w)
    | _, _ => none
  | "GETTH", [.register name, .word w] => (registerOfName name).map fun reg => .getth reg w
  | _, _ => none

/-- The command word of a line; every operand not written assembles to 0 (R88). -/
def assemble (mnemonic : String) (ops : List AsmOperand) : Option Command :=
  (assembleInstr mnemonic ops).map encode

end Sys2Proof.Machine
end

