-- ==== Sys2Proof/Tests/Slice0.lean ====
section
/-! SUPPORT. Tests. Expected values are the spec's own: 95_test_vectors.md, the examples of the operation rules, and words
written out from R60-R64. Then a witness for each statement of Obligations.lean that has hypotheses. -/

namespace Sys2Proof.Tests

open Sys2Proof.Machine Sys2Proof.Claims

/-! ## Small states and what is read of a result -/

/-- Nothing given. -/
def none9 : Given := ⟨none, none, none, none, none, none, none, none, none⟩

/-- A state with some commands at the port. -/
def at_ (p : Profile) (cfg : Slots Sym) (port : List Command) : State :=
  { State.powerOn { profile := p } with cfg := cfg, port := port }

/-- A state in which the host is about to take up a call, its bus operations decided by `draws`. -/
def calling (p : Profile) (c : Call) (draws : List Draw) : State :=
  { State.powerOn { profile := p } with session := ⟨[c], .idle, none⟩, draws := draws }

/-- A delivered bus operation that finds these words in the conversion and configuration registers. -/
def found (conversion configuration : Word) : Draw := ⟨true, ⟨conversion, configuration, 0, 0⟩⟩

/-- A bus operation that fails. -/
def lost : Draw := ⟨false, ⟨0, 0, 0, 0⟩⟩

/-- The response to the command word `w`. -/
def answer (p : Profile) (cfg : Slots Sym) (w : Command) : Option Response := answerOf (step (at_ p cfg [w]))

/-- `CFG` after the command word `w`. -/
def cfgAfterWord (p : Profile) (cfg : Slots Sym) (w : Command) : Option (Slots Sym) :=
  (nextOf (step (at_ p cfg [w]))).map State.cfg

/-- The host's result and its events after one step. -/
def seen (s : State) : Option (Option CallResult × List Event) :=
  (nextOf (step s)).map fun t => (t.session.result, t.trace)

/-! ## WellFormed (R88): each check refuses a term -/

theorem test_wf_ok : (Instr.update { none9 with pga := some 3 }).wellFormed = true := by decide
theorem test_wf_os : (Instr.update { none9 with os := some 3 }).wellFormed = false := by decide
theorem test_wf_pga : (Instr.encode { none9 with pga := some 6 }).wellFormed = false := by decide
theorem test_wf_one_bit : (Instr.encode { none9 with clat := some 2 }).wellFormed = false := by decide
theorem test_wf_dr : (Instr.update { none9 with dr := some 7 }).wellFormed = false := by decide
theorem test_wf_cque : (Instr.update { none9 with cque := some 4 }).wellFormed = false := by decide
theorem test_wf_gain : (Instr.conv (some 7) 0).wellFormed = false := by decide
theorem test_wf_setth : (Instr.setth .configuration 0).wellFormed = false := by decide
theorem test_wf_getth : (Instr.getth .conversion 0).wellFormed = false := by decide

/-! ## Decoding: words written out bit by bit from R60, R61 and R64 -/

-- op = 1; present = OS, MODE, DR (bits 6, 9, 10); sym: OS 2 at 16, MODE 1 at 25, DR 4 at 28
theorem test_decode_encode :
    decode (1 ||| 1 <<< 6 ||| 1 <<< 9 ||| 1 <<< 10 ||| 2 <<< 16 ||| 1 <<< 25 ||| 4 <<< 28) =
      .instr (.encode { none9 with os := some 2, mode := some 1, dr := some 4 }) := by decide
-- op = 2; data16 at 63:48
theorem test_decode_decode : decode (2 ||| 0x8583 <<< 48) = .instr (.decode 0x8583) := by decide
-- op = 3; present = MUX, CMODE, CPOL, CLAT, CQUE (bits 7, 11-14); sym at 19, 31, 34, 37, 40
theorem test_decode_update :
    decode (3 ||| 1 <<< 7 ||| 0xF <<< 11 ||| 5 <<< 19 ||| 1 <<< 31 ||| 1 <<< 34 ||| 1 <<< 37 ||| 2 <<< 40) =
      .instr (.update { none9 with mux := some 5, cmode := some 1, cpol := some 1, clat := some 1, cque := some 2 }) := by
  decide
theorem test_decode_start : decode 4 = .instr .start := by decide
theorem test_decode_busy : decode (5 ||| 0x0583 <<< 48) = .instr (.busy 0x0583) := by decide
theorem test_decode_reset : decode 6 = .instr .reset := by decide
-- op = 7; present[2] at 8; sym[2] at 24:22
theorem test_decode_conv : decode (7 ||| 1 <<< 8 ||| 5 <<< 22 ||| 0xFFA0 <<< 48) = .instr (.conv (some 5) 0xFFA0) := by
  decide
-- op = 8; ptr at 5:4
theorem test_decode_setth : decode (8 ||| 3 <<< 4 ||| 0xF800 <<< 48) = .instr (.setth .highThreshold 0xF800) := by decide
theorem test_decode_getth : decode (9 ||| 2 <<< 4 ||| 0x8000 <<< 48) = .instr (.getth .lowThreshold 0x8000) := by decide
-- the refusals of 95_test_vectors.md
theorem test_decode_reserved_op : decode 0xA = .refused (.reservedOp 0xA) := by decide
theorem test_decode_reserved_bits : decode 0x0000080000000006 = .refused .reservedBits := by decide
-- don't-care operands (R67): `sym` without `present`, `ptr` on START
theorem test_decode_dont_care : decode 0x00000000FFFF0034 = .instr .start := by decide

/-! ## The encoder and R88's syntax -/

theorem test_encode_update : encode (.update { none9 with pga := some 3 }) = 0x0000000000C00103 := by decide
theorem test_assemble_update : assemble "UPDATE" [.pair "pga" "fsr_1024"] = some 0x0000000000C00103 := by decide
theorem test_assemble_encode :
    assemble "ENCODE" [.pair "mode" "one_shot", .pair "dr" "sps_1600"] = some 0x0000000042000601 := by decide
theorem test_assemble_conv : assemble "CONV" [.word 0x7FF0, .pair "pga" "fsr_1024"] = some 0x7FF0000000C00107 := by
  decide
theorem test_assemble_setth : assemble "SETTH" [.register "hi", .value (-2049)] = some 0xF7FF000000000038 := by decide
theorem test_assemble_rejects : assemble "UPDATE" [.pair "pga" "fsr_99"] = none := by decide

/-! ## The instructions: at most two vectors of 95_test_vectors.md each -/

-- OS `converting` encodes to 0; MUX 7, PGA 5, MODE 0, DR 6, comparator fields 1, 1, 1, 0
theorem test_encode_word :
    answer .extendedMux defaults 0x00000024E1797FC1 = some { wordOut := 0x7ABC } := by decide
-- PGA index 6 is illegal, on `extended`
theorem test_encode_illegal :
    answer .extended defaults 0x0000030043807F41 = some { status := .invalidFieldValue, errField := 2 } := by decide
theorem test_decode_word :
    answer .extended defaults 0x7E1F000000000002 = some { symValid := 0x1FD, symOut := 0x3248141 } := by decide
theorem test_decode_base :
    answer .base defaults 0x8583000000000002 = some { symValid := 0x019, symOut := 0x0004200 } := by decide
theorem test_update_cfg :
    cfgAfterWord .extendedMux defaults 0x0000000060204483 = some ⟨0, 4, 2, 1, 6, 0, 0, 0, 0⟩ := by decide
-- the capability pass comes first, lowest index
theorem test_update_priority :
    answer .base defaults 0x0000000001C80183 = some { status := .unsupportedOperation, errField := 1 } := by decide
theorem test_start_word :
    answer .extendedMux ⟨0, 4, 2, 1, 6, 0, 0, 0, 0⟩ 4 = some { wordOut := 0xC5A0, wrValid := true, wrPtr := 1 } := by decide
theorem test_busy : answer .base defaults 0x7FFF000000000005 = some { busy := true } := by decide
theorem test_idle : answer .extended defaults 0x8000000000000005 = some {} := by decide
theorem test_reset_cfg : cfgAfterWord .extended ⟨0, 0, 3, 0, 0, 1, 1, 1, 0⟩ 6 = some ⟨0, 0, 2, 1, 4, 0, 0, 0, 3⟩ := by decide
-- S2: 0xFFF0 is -2048, in 12 and (times 8) in 17 bits
theorem test_conv_full_scale :
    answer .base defaults 0xFFF0000000000007 =
      some { raw12 := BitVec.ofInt 12 (-2048), scaledQ3 := BitVec.ofInt 17 (-16384) } := by decide
-- S6: -6 at the smallest gain
theorem test_conv_gain :
    answer .extended defaults 0xFFA0000001400107 =
      some { raw12 := BitVec.ofInt 12 (-6), scaledQ3 := BitVec.ofInt 17 (-6) } := by decide
theorem test_setth_negative :
    answer .extended defaults 0xFFFF000000000028 = some { wordOut := 0xFFF0, wrValid := true, wrPtr := 2 } := by decide
-- S8: 2048 is out of range
theorem test_setth_range :
    answer .extended defaults 0x0800000000000038 = some { status := .outOfRange } := by decide
-- no special case for 0xFFF0
theorem test_getth_minus_one :
    answer .extended defaults 0xFFF0000000000029 = some { thValue := BitVec.ofInt 12 (-1) } := by decide
theorem test_getth_pointer :
    answer .extended defaults 0x0000000000000019 = some { status := .unsupportedOperation } := by decide
-- C6: under DR_DATASHEET `dr_code5` has the code 0b101
theorem test_update_datasheet :
    answerOf (step { State.powerOn { profile := .extended, drTable := .datasheet } with port := [0x0000000050000403] }) =
      some { wordOut := 0x05A3, wrValid := true, wrPtr := 1 } := by decide
-- R65, R66: what a built codec block answers where a model refuses
theorem test_built_reserved :
    answerOf (builtStep (at_ .base defaults [0])) = some { status := .unsupportedOperation } := by decide
theorem test_built_ignores : answerOf (builtStep (at_ .base defaults [0x0000080000000006])) = some { gcReq := true } := by
  decide

/-! ## The host, one step each -/

-- P4 step 3: the configuration read, its two bytes high first
theorem test_host_read :
    seen (calling .extendedMux .isBusy [found 0x1230 0x0583]) = some (none, [.read 1 (some (0x05, 0x83))]) := by decide
-- P5 step 2: the write is lost, and the sequence ends with TransportError
theorem test_host_write_lost :
    seen { calling .extended .requestOneShot [lost] with
        session := ⟨[], .awaitWrite .configuration, none⟩, response := some { wordOut := 0x0783, wrValid := true, wrPtr := 1 } } =
      some (some (.failed .transportError), [.wrote 1 0x07 0x83 false]) := by decide
-- R46, R86
theorem test_host_general_call :
    seen (calling .base .generalCall [found 0 0]) = some (some .done, [.generalCall 0 6 true]) := by decide
-- R49: the chip's word after a general call keeps the draw's bits outside OWNED only
theorem test_chip_after_general_call : atDefaultsWord .base false 0x7E1F = 0xFF9F := by decide
-- R223: bit 15 is the draw's where a conversion may be in flight
theorem test_chip_in_flight_after_general_call : atDefaultsWord .base true 0x7E1F = 0x7F9F := by decide
-- R181, R215: a BUSY word of the caller's is no live read; RESET's general call is made
theorem test_host_stale_busy :
    step (calling .base (.command 0x8583000000000005) []) = .refused .busyWordNotLive := rfl
theorem test_host_reset_command :
    seen { calling .base .isBusy [found 0 0] with session := ⟨[], .awaitCommand, none⟩, response := some { gcReq := true } } =
      some (some .done, [.generalCall 0 6 true]) := by decide
-- log entry 23: BUSY with a reserved bit set
theorem test_host_busy_reserved_bit :
    step (calling .base (.command 0x8583000000008005) []) = .refused .busyWordNotLive := rfl
-- R178: the sleep before the next poll, at the rate of `CFG[4]`
theorem test_host_sleep :
    seen { calling .base .isBusy [] with session := ⟨[], .awaitPoll 1 none, none⟩, response := some { busy := true } } =
      some (none, [.slept (some 1600)]) := by decide
-- R176: no bus traffic on `base`
theorem test_host_threshold_base :
    seen (calling .base (.getThreshold .low) []) = some (some (.failed .unsupportedOperation), []) := by decide

/-! ## The table's words and the fetch -/

theorem test_table_word : decodeTableWord 64 0x0000000000000007 = some (.conv none 0) := by decide
theorem test_table_refuses : decodeTableWord 64 0x000000000000000A = none := by decide
theorem test_fetch_word : (nextOf (step (State.reset.withFetchWord 64 6))).map State.response = some (some { gcReq := true }) := by
  decide

/-! ## Witnesses: a state and operands that meet the hypotheses of each statement -/

theorem defaults_ok : ∀ f, slotOk { profile := .base } f (defaults.get f) := by
  intro f; cases f <;> decide

/-- The invariant holds of a power-on state whose port is loaded. -/
theorem inv_loaded (port : List Command) : ({ State.powerOn { profile := .base } with port := port } : State).Inv := by
  unfold State.Inv
  refine ⟨?_, ?_, ?_⟩
  · intro n h; cases h
  · exact defaults_ok
  · intro h; cases h

theorem witness_InvAtPowerOn : ({ profile := .base, maxPolls := some 1 } : Build).wf := by
  intro n h; cases h; decide

theorem witness_EveryStepKeepsInv : ∃ s t : State, s.Inv ∧ step s = .next t :=
  ⟨_, _, inv_loaded [6], rfl⟩

theorem witness_NoStepFaults : ∃ s : State, s.Inv := ⟨_, inv_loaded []⟩

theorem witness_OnlyUpdateAndResetWriteCfg :
    ∃ s t, step s = .next t ∧ t.cfg ≠ s.cfg :=
  ⟨at_ .base defaults [0x60000403], _, rfl, by decide⟩

theorem witness_HiddenSlots :
    (∃ (s t : State) (f : Field), step s = .next t ∧ has s.build.profile f = false ∧ s.cfg.get f = defaults.get f) ∧
      ∃ (s : State) (c : Slots Sym), c ≠ s.cfg ∧ ∀ f, f ≠ .os → has s.build.profile f = true → c.get f = s.cfg.get f := by
  refine ⟨⟨at_ .base defaults [6], _, .pga, rfl, rfl, rfl⟩, at_ .base defaults [], ⟨2, 7, 5, 1, 4, 1, 1, 1, 0⟩, by decide, ?_⟩
  intro f h1 h2
  cases f <;> first | rfl | exact absurd rfl h1 | cases h2

theorem witness_BuildNeverChanges : ∃ s t : State, step s = .next t := ⟨State.reset, _, rfl⟩

theorem witness_CommandsDependOnBuildAndCfg :
    ∃ s s' : State, s ≠ s' ∧ s.build = s'.build ∧ s.cfg = s'.cfg :=
  ⟨at_ .base defaults [], at_ .base defaults [6], by decide, rfl, rfl⟩

theorem witness_CommandFrame :
    ∃ (i : Instr) (s t : State) (f : Field), exec i s = .next t ∧ t.cfg.get f ≠ s.cfg.get f :=
  ⟨.update { none9 with dr := some 6 }, at_ .base defaults [], _, .dr, rfl, by decide⟩

theorem witness_ErrorsWriteNoState :
    ∃ (i : Instr) (s t : State) (r : Response), exec i s = .next t ∧ t.response = some r ∧ r.status ≠ .ok :=
  ⟨.getth .conversion 0, at_ .base defaults [], _, _, rfl, rfl, by decide⟩

theorem witness_OutOfRangeOnlyFromSetth :
    (∃ s t r, exec (.setth .lowThreshold 2048) s = .next t ∧ t.response = some r ∧ r.status = .outOfRange) ∧
      (∃ s t r, exec (.setth .lowThreshold 2047) s = .next t ∧ t.response = some r ∧ r.status = .ok) :=
  ⟨⟨at_ .extended defaults [], _, _, rfl, rfl, by decide⟩, ⟨at_ .extended defaults [], _, _, rfl, rfl, by decide⟩⟩

theorem witness_MapLaws :
    legal .source .dr 6 = true ∧ (5 : BitVec 3).toNat < 2 ^ width .dr ∧ decCode .source .dr 5 = 6 := by decide

theorem witness_BitFieldTable : (15 : Nat) < 16 ∧ pos .os ≤ 15 ∧ 15 < pos .os + width .os := by decide

theorem witness_BitsOutsideOwned :
    (0x7E1F : Word) ≠ 0 ∧ (0x7E1F : Word) &&& ownedMask .base = 0 &&& ownedMask .base := by decide

theorem witness_CodecRoundTrip :
    (∀ f, has .extendedMux f → legal .source f (defaults.get f)) ∧ has .extendedMux .os := by
  refine ⟨fun f _ => ?_, rfl⟩
  cases f <;> decide

/-- A property of all fields that `decide` can run. -/
theorem fields {p : Field → Prop} (h : ∀ f ∈ Field.all, p f) (f : Field) : p f := h f (Field.mem_all f)

theorem witness_EncodeOutcome :
    GateRaises { profile := .base } { none9 with mux := some 0, pga := some 7 } ⟨.unsupportedOperation, 1⟩ ∧
      GateRaises { profile := .extendedMux } { none9 with mux := some 0, pga := some 7 } ⟨.invalidFieldValue, 2⟩ ∧
      (GatePasses { profile := .base } { none9 with mode := some 1 } ∧
        First (Absent { profile := .base } { none9 with mode := some 1 }) .dr) ∧
      (GatePasses { profile := .base } { none9 with mode := some 1, dr := some 4 } ∧
        ∀ f, ¬ Absent { profile := .base } { none9 with mode := some 1, dr := some 4 } f) := by
  refine ⟨.inl ⟨.mux, ⟨⟨by decide, rfl⟩, ?_⟩, rfl⟩, .inr ⟨?_, .pga, ⟨⟨7, rfl, by decide⟩, ?_⟩, rfl⟩, ⟨?_, ⟨by decide, rfl, rfl⟩, ?_⟩, ?_, ?_⟩ <;>
    intro f
  · rintro ⟨h, _⟩; cases f <;> first | exact absurd rfl h | decide
  · rintro ⟨_, h⟩; cases f <;> cases h
  · rintro ⟨sym, h, h'⟩; cases f <;> first | decide | (cases h; try cases h')
  · refine ⟨fun ⟨h, h'⟩ => ?_, fun ⟨sym, h, h'⟩ => ?_⟩
    · cases f <;> first | exact absurd rfl h | cases h'
    · cases f <;> cases h; cases h'
  · rintro ⟨h, h', h''⟩; cases f <;> first | decide | exact absurd rfl h | exact absurd h' (by decide) | cases h''
  · refine ⟨fun ⟨h, h'⟩ => ?_, fun ⟨sym, h, h'⟩ => ?_⟩
    · cases f <;> first | exact absurd rfl h | cases h'
    · cases f <;> cases h <;> cases h'
  · rintro ⟨h, h', h''⟩; cases f <;> first | exact absurd rfl h | exact absurd h' (by decide) | cases h''

theorem witness_UpdateOutcome :
    GateRaises { profile := .base } { none9 with pga := some 3 } ⟨.unsupportedOperation, 2⟩ ∧
      GatePasses { profile := .extended } { none9 with pga := some 3 } := by
  refine ⟨.inl ⟨.pga, ⟨⟨by decide, rfl⟩, ?_⟩, rfl⟩, fun f => ⟨?_, ?_⟩⟩
  · rintro f ⟨h, _⟩; cases f <;> first | exact absurd rfl h | decide
  · rintro ⟨h, h'⟩; cases f <;> first | exact absurd rfl h | cases h'
  · rintro ⟨sym, h, h'⟩; cases f <;> cases h; cases h'

/-- The boundaries of CONV's clauses: a gain on `base`, gain indices 6 and 5, and the gain of `CFG`. -/
theorem witness_ConvOutcome :
    (at_ .base defaults []).build.profile = .base ∧ (some 2 : Option Sym) ≠ none ∧
      (at_ .extended defaults []).build.profile ≠ .base ∧ (∃ g, (some 6 : Option Sym) = some g ∧ 5 < g.toNat) ∧
      ((some 5 : Option Sym).getD 7).toNat ≤ 5 ∧ ((none : Option Sym).getD defaults.pga).toNat ≤ 5 :=
  ⟨rfl, by decide, by decide, ⟨6, rfl, by decide⟩, by decide, by decide⟩

/-- The boundaries of SETTH's range: -2049 and 2048 outside, -2048 and 2047 inside; GETTH and R147 share the premises. -/
theorem witness_SetthOutcome :
    (at_ .base defaults []).build.profile = .base ∧ (at_ .extended defaults []).build.profile ≠ .base ∧
      (0xF7FF : Word).toInt < -2048 ∧ 2047 < (0x0800 : Word).toInt ∧ -2048 ≤ (0xF800 : Word).toInt ∧
      (0xF800 : Word).toInt ≤ 2047 ∧ -2048 ≤ (0x07FF : Word).toInt ∧ (0x07FF : Word).toInt ≤ 2047 := by decide

theorem witness_BaseReadingsAreIntegers :
    (at_ .base defaults []).build.profile = .base ∧ (at_ .extended defaults []).build.profile ≠ .base ∧
      (none : Option Sym).getD (at_ .extended defaults []).cfg.pga = 2 := by decide

theorem witness_EncodedDefaults : (at_ .base defaults []).cfg = defaults := rfl

theorem witness_StepRunsDecodedCommand :
    (at_ .base defaults [6]).port = 6 :: [] ∧ decode 6 = .instr .reset := ⟨rfl, by decide⟩

theorem witness_EncodeKeepsTheBitsRead : decode 0x00000000FFFF0034 = .instr .start := by decide

theorem witness_DontCareOperands :
    (0x34 : Command) ≠ 4 ∧ (0x34 : Command) &&& 0x0000F80000008000 = 0 ∧ (4 : Command) &&& 0x0000F80000008000 = 0 ∧
      AgreeOnReads 0x34 4 := by
  refine ⟨by decide, by decide, by decide, by decide, ?_, ?_, ?_, ?_⟩ <;> intro h <;> exact absurd h (by decide)

theorem witness_ReservedOperations :
    opField 0 = 0 ∧ 0xA ≤ (opField 0xA).toNat ∧ 0xA ≤ (opField 0xF).toNat := by decide

theorem witness_ReservedBits :
    1 ≤ (opField 0x8004).toNat ∧ (opField 0x8004).toNat ≤ 9 ∧ (0x8004 : Command).toNat / 2 ^ 15 % 2 ≠ 0 ∧
      1 ≤ (opField 0x80000000009).toNat ∧ (opField 0x80000000009).toNat ≤ 9 ∧
      (0x80000000009 : Command).toNat / 2 ^ 43 % 32 ≠ 0 := by decide

theorem witness_BuiltBlockRefines :
    (∃ s t, step s = .next t) ∧ ∃ s e, step s = .fault e :=
  ⟨⟨State.reset, _, rfl⟩,
   ⟨{ State.reset with session := ⟨[], .awaitBusy, none⟩ }, .noResponse, rfl⟩⟩

theorem witness_HostStepFrame : ∃ s t, s.port = [] ∧ step s = .next t := ⟨State.reset, _, rfl, rfl⟩

theorem witness_Calling (p : Profile) (c : Call) (ds : List Draw) : Calling (calling p c ds) c [] := ⟨rfl, rfl, rfl⟩

/-- OneShotRequestSequence: a delivered start write to a chip that is not converting. -/
theorem witness_OneShotRequestSequence :
    ∃ s : State, Calling s .requestOneShot [] ∧ s.draw.ok = true ∧ s.chip.converting = false :=
  ⟨{ calling .base .requestOneShot [found 0 0x8583] with chip := ⟨⟨0, 0x8583, 0, 0⟩, false⟩ },
    ⟨rfl, rfl, rfl⟩, by decide, by decide⟩

/-- Both outcomes of a read, for BusySequence, ConversionReadSequence, ConfigurationReadSequence and ThresholdSequences. -/
theorem witness_ReadAnswers :
    (calling .extended .isBusy [found 0x1230 0x8583]).readAnswer .configuration = some 0x8583 ∧
      (calling .extended .isBusy [lost]).readAnswer .configuration = none ∧
      (calling .extended .conversionRead [found 0x1230 0]).readAnswer .conversion = some 0x1230 ∧
      (calling .extended (.getThreshold .low) [found 0 0]).readAnswer .lowThreshold = some 0 ∧
      (calling .extended (.getThreshold .high) [lost]).readAnswer .highThreshold = none := by decide

/-- The premises of the update and threshold sequences: an error and a success of UPDATE and of SETTH. -/
theorem witness_WriteSequences :
    (∃ u r, exec (.update { none9 with pga := some 3 }) (at_ .base defaults []) = .next u ∧ u.response = some r ∧ r.status ≠ .ok) ∧
      (∃ u r, exec (.update none9) (at_ .base defaults []) = .next u ∧ u.response = some r ∧ r.status = .ok) ∧
      (∃ u r, exec (.setth .highThreshold 0x0800) (at_ .extended defaults []) = .next u ∧ u.response = some r ∧ r.status ≠ .ok) ∧
      (∃ u r, exec (.setth .highThreshold 0x07FF) (at_ .extended defaults []) = .next u ∧ u.response = some r ∧ r.status = .ok) :=
  ⟨⟨_, _, rfl, rfl, by decide⟩, ⟨_, _, rfl, rfl, by decide⟩, ⟨_, _, rfl, rfl, by decide⟩, ⟨_, _, rfl, rfl, by decide⟩⟩

/-- A state in the poll loop, with a poll bound, that reads `w`. -/
def polling (bound : Option Nat) (deadline : Option Nat) (w : Word) : State :=
  { State.powerOn { profile := .base, maxPolls := bound } with
    session := ⟨[], .poll 0 deadline, none⟩, draws := [found 0 w] }

/-- A state that polls or reads the conversion, and whose next operation fails. -/
def losing (p : Phase) : State :=
  { State.powerOn { profile := .base } with session := ⟨[], p, none⟩, draws := [lost] }

/-- OneShotTransportErrors: the conversion read that gives a word. -/
theorem witness_ShotRead :
    ({ losing .shotRead with draws := [found 0x1230 0] } : State).readAnswer .conversion = some 0x1230 := by decide

/-- The failing reads of PollRound and OneShotTransportErrors. -/
theorem witness_FailedReads :
    (losing (.poll 3 none)).port = [] ∧ (losing (.poll 3 none)).readAnswer .configuration = none ∧
      (losing .shotRead).session.phase = .shotRead ∧ (losing .shotRead).readAnswer .conversion = none := by decide

/-- OneShotTransportErrors: a start write that is lost, and one that is delivered. -/
theorem witness_OneShotTransportErrors :
    Calling (calling .base (.oneShot (some 1)) [lost]) (.oneShot (some 1)) [] ∧
      (calling .base (.oneShot (some 1)) [lost]).draw.ok = false ∧
      (calling .base (.oneShot none) [found 0 0]).draw.ok = true := ⟨⟨rfl, rfl, rfl⟩, rfl, rfl⟩

/-- The clauses of SingleCommand: BUSY, a word that is no command, RESET, and a command that is neither. -/
theorem witness_SingleCommand :
    opField 0x8583000000000005 = 5 ∧ opField 0xA ≠ 5 ∧ decode 0xA = .refused (.reservedOp 0xA) ∧
      opField 6 ≠ 5 ∧ decode 6 = .instr .reset ∧ opField 4 ≠ 5 ∧ decode 4 = .instr .start := by decide

/-- The four clauses of PollRound: done, bound reached, deadline reached, and neither. -/
theorem witness_PollRound :
    ((polling none none 0x8000).readAnswer .configuration = some 0x8000 ∧ (0x8000 : Word).getLsbD 15 = true) ∧
      ((polling (some 1) none 0x7FFF).readAnswer .configuration = some 0x7FFF ∧ (0x7FFF : Word).getLsbD 15 = false ∧
        (polling (some 1) none 0x7FFF).build.maxPolls = some (0 + 1)) ∧
      ((polling (some 2) (some 1) 0x7FFF).build.maxPolls ≠ some (0 + 1) ∧ (some 1 : Option Nat) = some (0 + 1)) ∧
      ((polling (some 2) (some 2) 0x7FFF).build.maxPolls ≠ some (0 + 1) ∧ (some 2 : Option Nat) ≠ some (0 + 1)) ∧
      (polling none none 0).port = [] ∧ (polling none none 0).session.phase = .poll 0 none := by decide

/-- A one-shot call with one poll to make, in a session where an earlier reading was returned. -/
def shooting : State :=
  { State.powerOn { profile := .base } with
    session := ⟨[.oneShot none, .isBusy], .idle, some (.reading 0 0)⟩
    draws := [found 0 0x0583, found 0 0x8583, found 0x1230 0x8583] }

/-- 9 steps of it to its own reading. -/
theorem witness_OneShotBusTrace :
    Calling shooting (.oneShot none) [.isBusy] ∧
      ∃ k t, Reaches k shooting t ∧ t.session.calls = [.isBusy] ∧ t.session.phase = .idle ∧
        t.session.result = some (.reading 0x123 0x918) :=
  ⟨⟨rfl, rfl, rfl⟩, 9, _, rfl, rfl, rfl, by decide⟩

theorem busy_once : ∀ d ∈ [found 0 0x0583], Finds true d := by
  intro d h
  rw [List.mem_singleton] at h
  subst h
  exact ⟨rfl, by decide⟩

/-- OneShotCompletes under a poll bound: one busy poll, then done. -/
theorem witness_OneShotCompletes :
    ∃ s, Calling s (.oneShot none) [] ∧
      s.draws = found 0 0 :: ([found 0 0x0583] ++ found 0 0x8583 :: found 0x1230 0 :: []) ∧
      (found 0 0).ok = true ∧ (∀ d ∈ [found 0 0x0583], Finds true d) ∧ Finds false (found 0 0x8583) ∧
      ∀ n, s.build.maxPolls = some n → [found 0 0x0583].length < n :=
  ⟨{ State.powerOn { profile := .base, maxPolls := some 2 } with
      session := ⟨[.oneShot none], .idle, none⟩, draws := [found 0 0, found 0 0x0583, found 0 0x8583, found 0x1230 0] },
    ⟨rfl, rfl, rfl⟩, rfl, rfl, busy_once, ⟨rfl, by decide⟩,
    by intro n h; cases h; decide⟩

/-- OneShotTimesOut: the bound is one poll, and that poll is busy. -/
theorem witness_OneShotTimesOut :
    ∃ s, Calling s (.oneShot none) [] ∧ s.draws = found 0 0 :: ([found 0 0x0583] ++ []) ∧ (found 0 0).ok = true ∧
      (∀ d ∈ [found 0 0x0583], Finds true d) ∧ 0 < [found 0 0x0583].length ∧
      s.build.maxPolls = some [found 0 0x0583].length :=
  ⟨{ State.powerOn { profile := .base, maxPolls := some 1 } with
      session := ⟨[.oneShot none], .idle, none⟩, draws := [found 0 0, found 0 0x0583] },
    ⟨rfl, rfl, rfl⟩, rfl, rfl, busy_once, by decide, rfl⟩

/-- TransportPrimitives: the pointer selects the register that is read. -/
theorem test_host_read_pointer :
    seen (calling .base (.readReg 1 2) [found 0x1230 0x0583]) =
      some (some (.word 0x0583), [.read 1 (some (0x05, 0x83))]) := by decide

/-- TransportPrimitives: pointer 3 on `extended` and pointer 1 on `base`, delivered and lost. -/
theorem witness_TransportPrimitives :
    pointerRefusal (calling .extended (.readReg 3 2) [lost]).build.profile 3 = none ∧
      pointerRefusal (calling .base (.writeReg 1 [0x85, 0x83]) [found 0 0]).build.profile 1 = none ∧
      (calling .extended (.readReg 3 2) [lost]).draw.ok = false ∧
      (calling .base (.writeReg 1 [0x85, 0x83]) [found 0 0]).draw.ok = true := by decide

/-- A chip whose configuration register holds `w`, about to be reset and then asked. -/
def resetting (w : Word) (next : Call) : State :=
  { State.powerOn { profile := .base } with
    session := ⟨[.generalReset, next], .idle, none⟩, chip := ⟨⟨0, w, 0, 0⟩, false⟩, draws := [found 0 0, found 0 0x7E1F] }

/-- Both clauses of GeneralCallLeavesDefaults, with an idle chip and with a conversion in flight. -/
theorem witness_GeneralCallLeavesDefaults :
    Calling (resetting 0x8583 .configRead) .generalReset (.configRead :: []) ∧
      Calling (resetting 0x0583 .isBusy) .generalReset (.isBusy :: []) ∧
      (resetting 0x8583 .configRead).draws = found 0 0 :: found 0 0x7E1F :: [] ∧
      (found 0 0).ok = true ∧ (found 0 0x7E1F).ok = true ∧
      stillInFlight (resetting 0x8583 .configRead) (found 0 0) (found 0 0x7E1F) = false ∧
      stillInFlight (resetting 0x0583 .isBusy) (found 0 0) (found 0 0x7E1F) = true :=
  ⟨⟨rfl, rfl, rfl⟩, ⟨rfl, rfl, rfl⟩, rfl, rfl, rfl, by decide, by decide⟩

theorem witness_StartWriteBeginsConversion :
    ∃ s : State, s.draw.ok = true ∧ (0x8583 : Word).getLsbD 15 = true ∧ s.chip.converting = false :=
  ⟨{ calling .base .isBusy [found 0 0x8583] with chip := ⟨⟨0, 0x8583, 0, 0⟩, false⟩ }, by decide⟩

/-- The clauses of HostAccessesRefused: lengths 1, 0 and 3; pointers 4, 3 and 2 on `base`, and 3 on `extended`. -/
theorem witness_HostAccessesRefused :
    Calling (calling .base (.writeReg 1 [0]) []) (.writeReg 1 [0]) [] ∧ ([] : List Byte).length ≠ 1 ∧
      ([0, 0, 0] : List Byte).length ≠ 2 ∧ Calling (calling .base (.readReg 1 1) []) (.readReg 1 1) [] ∧
      3 < (4 : Byte).toNat ∧ (calling .base (.readReg 2 2) []).build.profile = .base ∧ (1 : Byte).toNat ≤ 1 ∧
      (3 : Byte).toNat ≤ 3 ∧ (calling .extended (.readReg 3 2) []).build.profile ≠ .base :=
  ⟨⟨rfl, rfl, rfl⟩, by decide, by decide, ⟨rfl, rfl, rfl⟩, by decide, rfl, by decide, by decide, by decide⟩

end Sys2Proof.Tests
end

/-! # The state: its two resets, and who writes `CFG` -/

namespace Sys2Proof.Machine

/-! ## What every move of the host leaves: the parameters and `CFG` -/

/-- `ReadReg` itself touches neither, so what follows it decides. -/
theorem State.readThen_keeps {s : State} {reg : ChipReg} {k : Word → State → State}
    (hk : ∀ w u, (k w u).build = u.build ∧ (k w u).cfg = u.cfg) :
    (s.readThen reg k).build = s.build ∧ (s.readThen reg k).cfg = s.cfg := by
  rcases s.readThen_cases reg k with ⟨w, -, h⟩ | ⟨-, h⟩
  · simp [h, hk]
  · simp [h]

theorem State.writeThen_keeps {s : State} {reg : ChipReg} {w : Word} {k : State → State}
    (hk : ∀ u, (k u).build = u.build ∧ (k u).cfg = u.cfg) :
    (s.writeThen reg w k).build = s.build ∧ (s.writeThen reg w k).cfg = s.cfg := by
  rcases s.writeThen_cases reg w k with ⟨-, h⟩ | ⟨-, h⟩
  · simp [h, hk]
  · simp [h]

theorem State.callThenFinish_keeps (s : State) :
    s.callThenFinish.build = s.build ∧ s.callThenFinish.cfg = s.cfg := by
  simp [State.callThenFinish]

theorem beginCall_keeps {c : Call} {s t : State} (h : beginCall c s = .next t) :
    t.build = s.build ∧ t.cfg = s.cfg := by
  rcases beginCall_cases h with
    ⟨w, p, rfl⟩ | ⟨r, rfl⟩ | ⟨reg, i, p, rfl⟩ | ⟨reg, rfl⟩ | ⟨reg, w, rfl⟩ | rfl
  · exact ⟨rfl, rfl⟩
  · exact ⟨rfl, rfl⟩
  · exact State.readThen_keeps fun _ _ => ⟨rfl, rfl⟩
  · exact State.readThen_keeps fun _ _ => ⟨rfl, rfl⟩
  · exact State.writeThen_keeps fun _ => ⟨rfl, rfl⟩
  · exact s.callThenFinish_keeps

theorem stillBusy_keeps (polls : Nat) (deadline : Option Nat) (s : State) :
    (stillBusy polls deadline s).build = s.build ∧ (stillBusy polls deadline s).cfg = s.cfg := by
  unfold stillBusy
  split
  · exact ⟨rfl, rfl⟩
  · split <;> exact ⟨rfl, rfl⟩

theorem onResponse_keeps (p : Phase) (r : Response) (s : State) :
    (onResponse p r s).build = s.build ∧ (onResponse p r s).cfg = s.cfg := by
  cases p
  case awaitWrite reg =>
    simp only [onResponse]
    split
    · exact State.writeThen_keeps fun _ => ⟨rfl, rfl⟩
    · exact ⟨rfl, rfl⟩
  case awaitReset | awaitCommand =>
    simp only [onResponse]
    split
    · exact s.callThenFinish_keeps
    · exact ⟨rfl, rfl⟩
  case awaitShotStart deadline => exact State.writeThen_keeps fun _ => ⟨rfl, rfl⟩
  case awaitPoll polls deadline =>
    simp only [onResponse]
    split
    · exact stillBusy_keeps polls deadline s
    · exact ⟨rfl, rfl⟩
  all_goals exact ⟨rfl, rfl⟩

/-- The host is not the codec block: none of its moves writes the parameters (R21) or `CFG` (R29). -/
theorem sessionStep_keeps {s t : State} (h : sessionStep s = .next t) :
    t.build = s.build ∧ t.cfg = s.cfg := by
  rcases sessionStep_cases h with
    ⟨-, -, rfl⟩ | ⟨c, rest, -, -, hc⟩ | ⟨n, d, -, rfl⟩ | ⟨-, rfl⟩ | ⟨r, -, -, rfl⟩
  · exact ⟨rfl, rfl⟩
  · exact beginCall_keeps (s := s.takeCall rest) hc
  · exact State.readThen_keeps fun _ _ => ⟨rfl, rfl⟩
  · exact State.readThen_keeps fun _ _ => ⟨rfl, rfl⟩
  · exact onResponse_keeps _ r s

/-! ## Which commands write `CFG`, and what the defaults encode to -/

theorem update_or_reset_of_cfgAfter_ne {b : Build} {cfg : Slots Sym} {i : Instr} (h : cfgAfter b cfg i ≠ cfg) :
    (∃ given, i = .update given) ∨ i = .reset := by
  cases i
  case update given => exact .inl ⟨given, rfl⟩
  case reset => exact .inr rfl
  all_goals exact absurd rfl h

/-- A legal symbol encodes to the code its table lists, whatever the free codes are. -/
theorem encCode_of_legal {t : DrTable} {f : Field} {sym : Sym} (h : legal t f sym = true) :
    encCode t f sym = canonicalCode t f sym := if_pos h

/-- R27: each default is legal under both data-rate tables. -/
theorem legal_defaults (t : DrTable) (f : Field) : legal t f (defaults.get f) = true := by
  cases t <;> cases f <;> rfl

end Sys2Proof.Machine

namespace Sys2Proof.Proofs

open Sys2Proof.Machine

/-- Settles O7: a step is a command or a move of the host; the host keeps `CFG`, and a command that changes it is UPDATE
or RESET. -/
theorem onlyUpdateAndResetWriteCfg : Obligations.OnlyUpdateAndResetWriteCfg := by
  intro s t hstep hne
  rcases step_cases s with ⟨-, hs⟩ | ⟨w, rest, hport, ⟨i, hdec, hs⟩ | ⟨why, -, hs⟩⟩
  · exact absurd (sessionStep_keeps (hs ▸ hstep)).2 hne
  · rw [hs, exec_eq] at hstep
    cases hstep
    refine ⟨w, rest, hport, ?_⟩
    rcases update_or_reset_of_cfgAfter_ne hne with ⟨given, rfl⟩ | rfl
    · exact .inl ⟨given, hdec⟩
    · exact .inr hdec
  · rw [hs] at hstep
    cases hstep

/-- Settles O1: every default is legal, so its code is the table's and no free value. -/
theorem defaultSymbolsAndCodes : Obligations.DefaultSymbolsAndCodes := by
  refine ⟨fun _ => rfl, fun t => ?_⟩
  simp only [encCode_of_legal (legal_defaults t _)]
  cases t <;> rfl

/-- Settles O2: power-on by definition, RESET by the inversion lemma of `exec`. -/
theorem bothResetsGiveDefaults : Obligations.BothResetsGiveDefaults :=
  ⟨fun _ => rfl, fun s => ⟨_, exec_eq .reset s, rfl⟩⟩

end Sys2Proof.Proofs

/-! # The words: the configuration word's fields, and what a command word's reserved and unread bits do -/

namespace Sys2Proof.Machine

/-! ## The BitField Table (R69-R71) -/

/-- Bit `k` of a configuration word is one of the field's (R70). -/
abbrev occupies (f : Field) (k : Nat) : Prop := pos f ≤ k ∧ k < pos f + width f

/-- A field lies within one byte of the word. -/
theorem bitOffset_add_bitWidth_le (f : Field) : (descriptor f).bitOffset + (descriptor f).bitWidth ≤ 8 := by
  cases f <;> decide

theorem exists_occupies {k : Nat} (hk : k < 16) : ∃ f, occupies f k := by
  have hall : ∀ k < 16, ∃ f ∈ Field.all, occupies f k := by decide
  obtain ⟨f, -, hf⟩ := hall k hk
  exact ⟨f, hf⟩

/-- The fields lie in the word in index order, from the top down. -/
theorem pos_add_width_le_of_index_lt {f g : Field} (h : f.index < g.index) : pos g + width g ≤ pos f := by
  have hall : ∀ f ∈ Field.all, ∀ g ∈ Field.all, f.index < g.index → pos g + width g ≤ pos f := by decide
  exact hall f f.mem_all g g.mem_all h

/-- R71: no two fields share a bit. -/
theorem occupies_unique {f g : Field} {k : Nat} (hf : occupies f k) (hg : occupies g k) : f = g := by
  obtain ⟨hf1, hf2⟩ := hf
  obtain ⟨hg1, hg2⟩ := hg
  rcases Nat.lt_trichotomy f.index g.index with h | h | h
  · have := pos_add_width_le_of_index_lt h
    omega
  · exact Field.index_inj h
  · have := pos_add_width_le_of_index_lt h
    omega

theorem pos_add_width_le (f : Field) : pos f + width f ≤ 16 := by cases f <;> decide

/-! ## The symbol tables (R73-R83) -/

/-- R83: decoding is total over the codes of the field's width. -/
theorem legal_decCode (t : DrTable) {f : Field} {c : BitVec 3} (h : c.toNat < 2 ^ width f) :
    legal t f (decCode t f c) = true := by
  revert c
  cases t <;> cases f <;> decide

theorem canonicalCode_lt {t : DrTable} {f : Field} {sym : Sym} (h : legal t f sym = true) :
    (canonicalCode t f sym).toNat < 2 ^ width f := by
  revert sym
  cases t <;> cases f <;> decide

/-- Every code, a free one too, has the width of its field. -/
theorem encCode_lt (t : DrTable) (f : Field) (sym : Sym) : (encCode t f sym).toNat < 2 ^ width f := by
  by_cases h : legal t f sym = true
  · rw [encCode_of_legal h]
    exact canonicalCode_lt h
  · have hmask : (BitVec.ofNat 3 (2 ^ width f - 1)).toNat < 2 ^ width f := by cases f <;> decide
    rw [encCode, if_neg h, BitVec.toNat_and]
    exact Nat.and_lt_two_pow _ hmask

/-- Decoding inverts encoding for every field but OS. -/
theorem decCode_canonicalCode {t : DrTable} {f : Field} {sym : Sym} (hos : f ≠ .os) (h : legal t f sym = true) :
    decCode t f (canonicalCode t f sym) = sym := by
  cases f
  case os => exact absurd rfl hos
  case pga => revert sym; cases t <;> decide
  case dr => revert sym; cases t <;> decide
  all_goals rfl

/-- No code that decodes to a symbol is below the canonical one. -/
theorem canonicalCode_decCode_le (t : DrTable) (f : Field) (c : BitVec 3) :
    (canonicalCode t f (decCode t f c)).toNat ≤ c.toNat := by
  cases f
  case os => revert c; cases t <;> decide
  case pga => revert c; cases t <;> decide
  case dr => revert c; cases t <;> decide
  all_goals exact Nat.le_refl _

/-! ## The bits of a configuration word (R72, R100-R102) -/

/-- A bit of a union over the fields is set exactly if it is in the part of one of them. -/
theorem getLsbD_union_iff {n : Nat} (part : Field → BitVec n) (k : Nat) :
    (Field.all.foldr (fun f w => part f ||| w) 0).getLsbD k = true ↔ ∃ f, (part f).getLsbD k = true := by
  have hlist : ∀ l : List Field, (l.foldr (fun f w => part f ||| w) 0).getLsbD k =
      l.any fun f => (part f).getLsbD k := by
    intro l
    induction l with
    | nil => exact BitVec.getLsbD_zero
    | cons f l ih => rw [List.foldr_cons, BitVec.getLsbD_or, ih, List.any_cons]
  rw [hlist, List.any_eq_true]
  exact exists_congr fun f => and_iff_right f.mem_all

theorem getLsbD_fieldMask (f : Field) (k : Nat) :
    (BitVec.ofNat 16 ((2 ^ width f - 1) * 2 ^ pos f)).getLsbD k = true ↔ occupies f k := by
  have := pos_add_width_le f
  rw [BitVec.getLsbD_ofNat, ← Nat.shiftLeft_eq, Nat.testBit_shiftLeft, Nat.testBit_two_pow_sub_one]
  simp only [Bool.and_eq_true, decide_eq_true_eq]
  omega

/-- R72: `OWNED` is the union of the bits of the profile's fields. -/
theorem getLsbD_owned_iff (p : Profile) (k : Nat) :
    (owned p).getLsbD k = true ↔ ∃ f, has p f = true ∧ occupies f k := by
  rw [owned, getLsbD_union_iff]
  refine exists_congr fun f => ?_
  by_cases h : has p f = true
  · simp only [h, if_true, true_and, getLsbD_fieldMask]
  · simp [h]

theorem owned_eq_ownedMask (p : Profile) : owned p = Claims.ownedMask p := by cases p <;> rfl

/-- What the encoder puts in for a field lies in that field's bits. -/
theorem occupies_of_codeInPlace {b : Build} {m : Slots Sym} {f : Field} {k : Nat}
    (h : (codeInPlace b m f).getLsbD k = true) : has b.profile f = true ∧ occupies f k := by
  unfold codeInPlace at h
  split at h
  case isTrue hhas =>
    simp only [BitVec.getLsbD_shiftLeft, BitVec.getLsbD_setWidth, Bool.and_eq_true, Bool.not_eq_true',
      decide_eq_false_iff_not, Nat.not_lt] at h
    obtain ⟨⟨-, hpos⟩, -, hcode⟩ := h
    have hwidth : k - pos f < width f := by
      by_contra hge
      have hlt := Nat.lt_of_lt_of_le (encCode_lt b.drTable f (m.get f))
        (Nat.pow_le_pow_right Nat.two_pos (Nat.le_of_not_lt hge))
      rw [BitVec.getLsbD, Nat.testBit_lt_two_pow hlt] at hcode
      cases hcode
    exact ⟨hhas, hpos, by omega⟩
  case isFalse => simp at h

/-- R72: encoding writes 0 outside `OWNED`. -/
theorem getLsbD_owned_of_encWord {b : Build} {m : Slots Sym} {k : Nat} (h : (encWord b m).getLsbD k = true) :
    (owned b.profile).getLsbD k = true := by
  obtain ⟨f, hf⟩ := (getLsbD_union_iff _ k).mp h
  exact (getLsbD_owned_iff _ k).mpr ⟨f, occupies_of_codeInPlace hf⟩

theorem getLsbD_byteOf (f : Field) (w : Word) (j : Nat) :
    (byteOf f w).getLsbD j = (decide (j < 8) && w.getLsbD (8 * (1 - (descriptor f).byteIndex) + j)) := by
  cases f <;> simp [byteOf, descriptor, Word.high, Word.low]

/-- R100: bit `j` of a field's code is bit `POS + j` of the word. -/
theorem getLsbD_code (f : Field) (w : Word) (j : Nat) :
    (code f w).getLsbD j = (decide (j < width f) && w.getLsbD (pos f + j)) := by
  have hbyte : (descriptor f).bitOffset + width f ≤ 8 := bitOffset_add_bitWidth_le f
  have hwidth : width f ≤ 3 := by cases f <;> decide
  simp only [code, BitVec.getLsbD_setWidth, BitVec.getLsbD_and, BitVec.getLsbD_ushiftRight, getLsbD_byteOf,
    BitVec.getLsbD_ofNat, Nat.testBit_two_pow_sub_one, pos, Nat.add_assoc]
  by_cases hj : j < width f
  · have h3 : j < 3 := by omega
    have h8 : j < 8 := by omega
    have ho : (descriptor f).bitOffset + j < 8 := by omega
    simp [hj, h3, h8, ho]
  · simp [hj]

/-- R72: decoding ignores every bit outside `OWNED`. -/
theorem code_congr {p : Profile} {f : Field} {v w : Word} (hf : has p f = true)
    (h : v &&& owned p = w &&& owned p) : code f v = code f w := by
  apply BitVec.eq_of_getLsbD_eq
  intro j _
  rw [getLsbD_code, getLsbD_code]
  by_cases hj : j < width f
  · have hown : (owned p).getLsbD (pos f + j) = true :=
      (getLsbD_owned_iff p _).mpr ⟨f, hf, by omega, by omega⟩
    have hbit := congrArg (fun u : Word => u.getLsbD (pos f + j)) h
    simp only [BitVec.getLsbD_and, hown, Bool.and_true] at hbit
    rw [hbit]
  · simp [hj]

theorem decWord_congr {b : Build} {v w : Word} (h : v &&& owned b.profile = w &&& owned b.profile) :
    decWord b v = decWord b w := by
  refine Slots.ext_get fun f => ?_
  simp only [decWord, Slots.get_ofFn]
  split
  case isTrue hf => rw [code_congr hf h]
  case isFalse => rfl

end Sys2Proof.Machine

namespace Sys2Proof

open Sys2Proof.Claims

/-! ## The operands a command word does not read, and its reserved bits (R62, R65-R67) -/

theorem givenField_congr {v w : Command} {f : Field} (hpresent : presentField v f = presentField w f)
    (hsym : presentField v f = true → symField v f = symField w f) : givenField v f = givenField w f := by
  unfold givenField
  rw [← hpresent]
  split
  case isTrue h => rw [hsym h]
  case isFalse => rfl

/-- R67: what a command word decodes to depends on `op` and the operands that operation reads. -/
theorem decodeOp_congr {v w : Command} (h : AgreeOnReads v w) : decodeOp v = decodeOp w := by
  obtain ⟨hop, hgiven, hgain, hptr, hdata⟩ := h
  unfold decodeOp
  rw [← hop]
  have hgivenFields (ho : opField v = 1 ∨ opField v = 3) : givenFields v = givenFields w :=
    congrArg Slots.ofFn (funext fun f => givenField_congr (hgiven ho f).1 (hgiven ho f).2)
  have hopEq {n : Nat} (ho : (opField v).toNat = n) : opField v = BitVec.ofNat 4 n := by simp [← ho]
  split
  case h_1 ho => rw [hgivenFields (.inl (hopEq ho))]
  case h_2 ho => rw [hdata (by simp [hopEq ho])]
  case h_3 ho => rw [hgivenFields (.inr (hopEq ho))]
  case h_5 ho => rw [hdata (by simp [hopEq ho])]
  case h_7 ho =>
    obtain ⟨hpresent, hsym⟩ := hgain (hopEq ho)
    rw [givenField_congr hpresent hsym, hdata (by simp [hopEq ho])]
  case h_8 ho => rw [hptr (.inl (hopEq ho)), hdata (by simp [hopEq ho])]
  case h_9 ho => rw [hptr (.inr (hopEq ho)), hdata (by simp [hopEq ho])]
  all_goals rfl

/-- A model's decoder looks at the reserved bits only to refuse. -/
theorem decode_of_reserved_zero {w : Command} (h : w &&& reservedMask = 0) : decode w = decodeOp w := by
  unfold decode
  split
  case h_1 why hd => exact hd.symm
  case h_2 i hd => rw [if_pos h, hd]

/-- R66: a reserved bit that is set refuses an assigned operation. -/
theorem decode_of_reserved_ne_zero {w : Command} {i : Instr} (hd : decodeOp w = .instr i)
    (h : w &&& reservedMask ≠ 0) : decode w = .refused .reservedBits := by
  unfold decode
  rw [hd]
  exact if_neg h

/-- R64: the nine operations 1 to 9 are assigned. -/
theorem decodeOp_assigned {w : Command} (h1 : 1 ≤ (opField w).toNat) (h9 : (opField w).toNat ≤ 9) :
    ∃ i, decodeOp w = .instr i := by
  unfold decodeOp
  split
  case h_10 =>
    simp only [imp_false] at *
    omega
  all_goals exact ⟨_, rfl⟩

/-- The word with its reserved bits cleared. -/
def clearReserved (w : Command) : Command := w &&& ~~~reservedMask

theorem clearReserved_and_reservedMask (w : Command) : clearReserved w &&& reservedMask = 0 := by
  have hmask : ~~~reservedMask &&& reservedMask = 0 := by decide
  rw [clearReserved, BitVec.and_assoc, hmask]
  exact BitVec.and_zero

theorem getLsbD_clearReserved (w : Command) {k : Nat} (h : reservedMask.getLsbD k = false) :
    (clearReserved w).getLsbD k = w.getLsbD k := by
  rw [clearReserved, BitVec.getLsbD_and, BitVec.getLsbD_not, h]
  by_cases hk : k < 64
  · simp [hk]
  · simp [BitVec.getLsbD_of_ge w k (Nat.le_of_not_lt hk)]

/-- Clearing the reserved bits leaves a slice of the word that holds none of them. -/
theorem extractLsb'_clearReserved (w : Command) {lo len : Nat} (h : reservedMask.extractLsb' lo len = 0) :
    (clearReserved w).extractLsb' lo len = w.extractLsb' lo len := by
  apply BitVec.eq_of_getLsbD_eq
  intro k hk
  have hbit := congrArg (fun u => u.getLsbD k) h
  simp only [BitVec.getLsbD_extractLsb', hk, decide_true, Bool.true_and] at hbit ⊢
  exact getLsbD_clearReserved w (hbit.trans BitVec.getLsbD_zero)

/-- No operand has a reserved bit, so clearing those leaves all that any operation reads (R60). -/
theorem agreeOnReads_clearReserved (w : Command) : AgreeOnReads w (clearReserved w) := by
  have hop : opField w = opField (clearReserved w) := (extractLsb'_clearReserved w (by decide)).symm
  have hptr : ptrField w = ptrField (clearReserved w) := (extractLsb'_clearReserved w (by decide)).symm
  have hdata : dataField w = dataField (clearReserved w) := (extractLsb'_clearReserved w (by decide)).symm
  have hsym (f : Field) : symField w f = symField (clearReserved w) f :=
    (extractLsb'_clearReserved w (by cases f <;> decide)).symm
  have hpresent (f : Field) : presentField w f = presentField (clearReserved w) f :=
    (getLsbD_clearReserved w (by cases f <;> decide)).symm
  exact ⟨hop, fun _ f => ⟨hpresent f, fun _ => hsym f⟩, fun _ => ⟨hpresent _, fun _ => hsym _⟩, fun _ => hptr,
    fun _ => hdata⟩

/-- A slice of reserved bits only is 0 where no reserved bit is set. -/
theorem extractLsb'_of_reserved_zero {lo len : Nat} {w : Command} (h : w &&& reservedMask = 0)
    (hmask : reservedMask.extractLsb' lo len = BitVec.allOnes len) : w.toNat / 2 ^ lo % 2 ^ len = 0 := by
  have hslice := congrArg (BitVec.extractLsb' lo len) h
  rw [BitVec.extractLsb'_and, hmask, BitVec.and_allOnes] at hslice
  have hnat := congrArg BitVec.toNat hslice
  simpa [BitVec.extractLsb'_toNat, Nat.shiftRight_eq_div_pow] using hnat

end Sys2Proof

namespace Sys2Proof.Machine

/-! ## A step with a command at the port -/

theorem step_congr_decode {v w : Command} (h : decode v = decode w) (s : State) (rest : List Command) :
    step { s with port := v :: rest } = step { s with port := w :: rest } := by
  simp only [step, fetch, h]

/-- A model's step with a word that decodes runs the instruction. -/
theorem step_of_instr {s : State} {w : Command} {rest : List Command} {i : Instr} (hp : s.port = w :: rest)
    (hd : decode w = .instr i) : step s = exec i { s with port := rest } := by
  simp only [step, fetch, hp, hd]

theorem step_of_refused {s : State} {w : Command} {rest : List Command} {why : Unassigned} (hp : s.port = w :: rest)
    (hd : decode w = .refused why) : step s = .refused (refusalOf why) := by
  simp only [step, fetch, hp, hd]

/-- A built block's step looks at no reserved bit. -/
theorem builtStep_of_instr {s : State} {w : Command} {rest : List Command} {i : Instr} (hp : s.port = w :: rest)
    (hd : decodeOp w = .instr i) : builtStep s = exec i { s with port := rest } := by
  simp only [builtStep, fetch, hp, builtCommand, hd]

end Sys2Proof.Machine

namespace Sys2Proof.Proofs

open Sys2Proof.Machine

/-- Settles O15: the rows by evaluation; the partition by `exists_occupies` and `occupies_unique`. -/
theorem bitFieldTable : Obligations.BitFieldTable :=
  ⟨rfl, rfl, rfl, rfl, bitOffset_add_bitWidth_le, fun _ hk =>
    (exists_occupies hk).imp fun _ hf => ⟨hf, fun _ h1 h2 => occupies_unique ⟨h1, h2⟩ hf⟩⟩

/-- Settles O17: a legal symbol encodes to the code its table lists, of which the table's own facts speak. -/
theorem mapLaws : Obligations.MapLaws := by
  refine ⟨fun t f c => legal_decCode t, fun t => ?_, fun t f sym hos hlegal => ⟨encCode_lt t f sym, ?_, ?_⟩,
    fun t => ⟨0, rfl, ?_⟩⟩
  · cases t <;> decide
  · rw [encCode_of_legal hlegal, decCode_canonicalCode hos hlegal]
  · rintro c - rfl
    rw [encCode_of_legal hlegal]
    exact canonicalCode_decCode_le t f c
  · have hcode : encCode t .os 0 = 0 := encCode_of_legal rfl
    rw [hcode]
    cases t <;> decide

/-- Settles O19: with `OWNED` known as the union of the profile's fields, bit by bit. -/
theorem bitsOutsideOwned : Obligations.BitsOutsideOwned := by
  refine ⟨owned_eq_ownedMask, ?_⟩
  simp only [← owned_eq_ownedMask]
  refine ⟨getLsbD_owned_iff, fun b m => ?_, fun b v w => decWord_congr⟩
  apply BitVec.eq_of_getLsbD_eq
  intro k hk
  rw [BitVec.getLsbD_and, BitVec.getLsbD_not]
  cases hbit : (encWord b m).getLsbD k
  · simp
  · simp [getLsbD_owned_of_encWord hbit]

/-- Settles O39: what a step does with a word, it does with what the word decodes to. -/
theorem dontCareOperands : Obligations.DontCareOperands := by
  intro v w h
  have hdec := decodeOp_congr h
  refine ⟨fun hv hw => ?_, hdec, fun s => by rw [builtCommand, builtCommand, hdec]⟩
  have hmodel : decode v = decode w := by
    rw [decode_of_reserved_zero hv, decode_of_reserved_zero hw, hdec]
  exact ⟨hmodel, step_congr_decode hmodel⟩

/-- Settles O41: clearing the reserved bits leaves every operand, so the cleared word decodes to what the built block
runs. -/
theorem reservedBits : Obligations.ReservedBits := by
  intro s w rest hp h1 h9 hbits
  obtain ⟨i, hi⟩ := decodeOp_assigned h1 h9
  have hset : w &&& reservedMask ≠ 0 := by
    intro hzero
    rcases hbits with h15 | h43
    · exact h15 (extractLsb'_of_reserved_zero (lo := 15) (len := 1) hzero (by decide))
    · exact h43 (extractLsb'_of_reserved_zero (lo := 43) (len := 5) hzero (by decide))
  have hclear : decode (clearReserved w) = .instr i := by
    rw [decode_of_reserved_zero (clearReserved_and_reservedMask w),
      ← decodeOp_congr (agreeOnReads_clearReserved w), hi]
  constructor
  · exact step_of_refused hp (decode_of_reserved_ne_zero hi hset)
  · calc builtStep s = exec i { s with port := rest } := builtStep_of_instr hp hi
      _ = step { s with port := clearReserved w :: rest } :=
        (step_of_instr (s := { s with port := clearReserved w :: rest }) rfl hclear).symm

end Sys2Proof.Proofs

/-! # The configuration codec: what the encoder, the decoder and the checks answer, and the outcome of each command -/

namespace Sys2Proof.Machine

open Sys2Proof.Claims

/-! ## A field's code in a word, and the word the encoder makes (R100-R102) -/

/-- R100: the value of a field's code is the number in the field's bits of the word. -/
theorem code_toNat (f : Field) (w : Word) : (code f w).toNat = fieldBits f w := by
  refine Nat.eq_of_testBit_eq fun j => ?_
  rw [fieldBits, Nat.testBit_mod_two_pow, Nat.testBit_div_two_pow, Nat.add_comm j]
  exact getLsbD_code f w j

theorem code_eq_ofNat_fieldBits (f : Field) (w : Word) : code f w = BitVec.ofNat 3 (fieldBits f w) := by
  rw [← code_toNat, BitVec.ofNat_toNat, BitVec.setWidth_eq]

theorem fieldBits_lt (f : Field) (w : Word) : fieldBits f w < 2 ^ width f := Nat.mod_lt _ (Nat.two_pow_pos _)

/-- R101: in the bits of a field of the profile the encoded word holds that field's code alone. -/
theorem getLsbD_encWord {b : Build} (m : Slots Sym) {f : Field} {j : Nat} (hf : has b.profile f = true)
    (hj : j < width f) : (encWord b m).getLsbD (pos f + j) = (encCode b.drTable f (m.get f)).getLsbD j := by
  have hplace : (codeInPlace b m f).getLsbD (pos f + j) = (encCode b.drTable f (m.get f)).getLsbD j := by
    have := pos_add_width_le f
    have h16 : pos f + j < 16 := by omega
    simp [codeInPlace, hf, h16]
  rw [Bool.eq_iff_iff, ← hplace, encWord, getLsbD_union_iff]
  constructor
  · rintro ⟨g, hg⟩
    have hsame : g = f := occupies_unique (occupies_of_codeInPlace hg).2 ⟨by omega, by omega⟩
    exact hsame ▸ hg
  · exact fun h => ⟨f, h⟩

theorem code_encWord {b : Build} (m : Slots Sym) {f : Field} (hf : has b.profile f = true) :
    code f (encWord b m) = encCode b.drTable f (m.get f) := by
  refine BitVec.eq_of_getLsbD_eq fun j _ => ?_
  rw [getLsbD_code]
  by_cases hj : j < width f
  · rw [getLsbD_encWord m hf hj, decide_eq_true hj, Bool.true_and]
  · have hlt := Nat.lt_of_lt_of_le (encCode_lt b.drTable f (m.get f))
      (Nat.pow_le_pow_right Nat.two_pos (Nat.le_of_not_lt hj))
    rw [decide_eq_false hj, Bool.false_and, BitVec.getLsbD, Nat.testBit_lt_two_pow hlt]

theorem fieldBits_encWord {b : Build} (m : Slots Sym) {f : Field} (hf : has b.profile f = true)
    (hlegal : legal b.drTable f (m.get f) = true) :
    fieldBits f (encWord b m) = (canonicalCode b.drTable f (m.get f)).toNat := by
  rw [← code_toNat, code_encWord m hf, encCode_of_legal hlegal]

/-- R72: encoding leaves every bit outside `OWNED` clear. -/
theorem getLsbD_encWord_of_not_owned {b : Build} (m : Slots Sym) {k : Nat}
    (hk : (ownedMask b.profile).getLsbD k = false) : (encWord b m).getLsbD k = false := by
  by_contra hset
  rw [← owned_eq_ownedMask, getLsbD_owned_of_encWord (Bool.eq_true_of_not_eq_false hset)] at hk
  cases hk

/-- The word the encoder makes of `m` encodes the symbols `m` holds. -/
theorem wordHolds_encWord (b : Build) {m : Slots Sym} {g : Field → Sym} (hm : ∀ f, m.get f = g f) :
    WordHolds b (encWord b m) g := by
  obtain rfl : m.get = g := funext hm
  exact ⟨fun f hf hlegal => fieldBits_encWord m hf hlegal, fun k => getLsbD_encWord_of_not_owned m⟩

/-! ## OS and the duplicate codes (R73, R75, R77) -/

/-- OS is a field of every profile (R22). -/
theorem has_os (p : Profile) : has p .os = true := by cases p <;> rfl

/-- R73: OS encodes a request and decodes a status, so it does not come back as it was. -/
theorem decCode_canonicalCode_os (t : DrTable) (sym : Sym) :
    decCode t .os (canonicalCode t .os sym) = if sym = 2 then 0 else 1 := by
  revert sym
  cases t <;> decide

theorem canonicalCode_decCode_os (t : DrTable) (c : BitVec 3) : canonicalCode t .os (decCode t .os c) = 0 := by
  revert c
  cases t <;> decide

/-- R111's `CANON`: the top codes of PGA and of DR are duplicates, and no other code is. -/
theorem canonicalCode_decCode (t : DrTable) {f : Field} (hos : f ≠ .os) (c : BitVec 3) :
    (canonicalCode t f (decCode t f c)).toNat =
      if f = .pga then min c.toNat 5
      else if f = .dr then min c.toNat (if t = .source then 5 else 6)
      else c.toNat := by
  cases f
  case os => exact absurd rfl hos
  case pga => revert c; cases t <;> decide
  case dr => revert c; cases t <;> decide
  all_goals rfl

/-- R73: OS decodes to `converting` exactly where bit 15 is clear. -/
theorem decCode_os_eq_one (t : DrTable) (w : Word) : decide (decCode t .os (code .os w) = 1) = !w.getLsbD 15 := by
  have hbit : w.getLsbD 15 = decide ((code .os w).toNat = 1) := by
    rw [code_toNat]
    exact Nat.testBit_eq_decide_div_mod_eq
  rw [hbit]
  by_cases h : (code .os w).toNat = 1 <;> simp [decCode, h]

/-! ## Decoding and encoding again (R110, R111) -/

theorem get_decWord {b : Build} (w : Word) {f : Field} (hf : has b.profile f = true) :
    (decWord b w).get f = some (decCode b.drTable f (code f w)) := by
  rw [decWord, Slots.get_ofFn, if_pos hf]

theorem isSome_get_decWord (b : Build) (w : Word) (f : Field) :
    ((decWord b w).get f).isSome = has b.profile f := by
  rw [decWord, Slots.get_ofFn]
  cases has b.profile f <;> rfl

theorem getD_get_decWord (b : Build) (w : Word) (f : Field) :
    ((decWord b w).get f).getD 0 =
      if has b.profile f then decCode b.drTable f (BitVec.ofNat 3 (fieldBits f w)) else 0 := by
  rw [decWord, Slots.get_ofFn, code_eq_ofNat_fieldBits]
  cases has b.profile f <;> rfl

/-- The symbols a word decodes to, 0 for a field outside the profile. -/
def decodedSymbols (b : Build) (w : Word) : Slots Sym := Slots.ofFn fun f => ((decWord b w).get f).getD 0

theorem get_decodedSymbols {b : Build} (w : Word) {f : Field} (hf : has b.profile f = true) :
    (decodedSymbols b w).get f = decCode b.drTable f (code f w) := by
  rw [decodedSymbols, Slots.get_ofFn, get_decWord w hf, Option.getD_some]

/-- R111: a field of the profile comes back with the canonical code of the symbol its code decodes to. -/
theorem fieldBits_encWord_decodedSymbols {b : Build} (w : Word) {f : Field} (hf : has b.profile f = true) :
    fieldBits f (encWord b (decodedSymbols b w)) =
      (canonicalCode b.drTable f (decCode b.drTable f (code f w))).toNat := by
  have hlegal : legal b.drTable f ((decodedSymbols b w).get f) = true := by
    rw [get_decodedSymbols w hf]
    exact legal_decCode _ (code_toNat f w ▸ fieldBits_lt f w)
  rw [fieldBits_encWord _ hf hlegal, get_decodedSymbols w hf]

/-- Bit 15 of an encoded word is the code of OS. -/
theorem getLsbD_encWord_15 (b : Build) (m : Slots Sym) :
    (encWord b m).getLsbD 15 = (encCode b.drTable .os (m.get .os)).getLsbD 0 :=
  getLsbD_encWord m (has_os b.profile) (j := 0) Nat.one_pos

/-! ## What DECODE packs into its response (R68) -/

theorem getLsbD_packValid (s : Given) (f : Field) : (packValid s).getLsbD f.index = (s.get f).isSome := by
  have hpart (g : Field) : ((if (s.get g).isSome then (1 : BitVec 9) <<< g.index else 0).getLsbD f.index = true) ↔
      g = f ∧ (s.get f).isSome = true := by
    have hshift : ((1 : BitVec 9) <<< g.index).getLsbD f.index = decide (g = f) := by
      cases f <;> cases g <;> rfl
    by_cases hg : (s.get g).isSome = true
    · rw [if_pos hg, hshift, decide_eq_true_eq, iff_self_and]
      rintro rfl
      exact hg
    · rw [if_neg hg]
      refine iff_of_false (by simp) ?_
      rintro ⟨rfl, h⟩
      exact hg h
  rw [Bool.eq_iff_iff, packValid, getLsbD_union_iff]
  simp only [hpart, exists_eq_left]

theorem extractLsb'_packSymbols (s : Given) (f : Field) :
    (packSymbols s).extractLsb' (3 * f.index) 3 = (s.get f).getD 0 := by
  refine BitVec.eq_of_getLsbD_eq fun j hj => ?_
  have hindex : f.index < 9 := by cases f <;> decide
  have hpart (g : Field) :
      ((((s.get g).getD 0).setWidth 27 <<< (3 * g.index)).getLsbD (3 * f.index + j) = true) ↔
        g = f ∧ ((s.get f).getD 0).getLsbD j = true := by
    constructor
    · intro h
      simp only [BitVec.getLsbD_shiftLeft, BitVec.getLsbD_setWidth, Bool.and_eq_true, Bool.not_eq_true',
        decide_eq_false_iff_not, Nat.not_lt] at h
      obtain ⟨⟨-, hle⟩, -, hbit⟩ := h
      have hlt := BitVec.lt_of_getLsbD hbit
      obtain rfl : g = f := Field.index_inj (by omega)
      exact ⟨rfl, Nat.add_sub_cancel_left (3 * g.index) j ▸ hbit⟩
    · rintro ⟨rfl, hbit⟩
      have h27 : 3 * g.index + j < 27 := by omega
      simpa [h27] using hbit
  rw [Bool.eq_iff_iff, BitVec.getLsbD_extractLsb', decide_eq_true hj, Bool.true_and, packSymbols, getLsbD_union_iff]
  simp only [hpart, exists_eq_left]

/-! ## The checks as the first field with a property (R103, R104) -/

theorem find?_all_of_first {P : Field → Prop} {p : Field → Bool} (hp : ∀ f, p f = true ↔ P f) {f : Field}
    (h : First P f) : Field.all.find? p = some f := by
  obtain ⟨hf, hmin⟩ := h
  cases hfind : Field.all.find? p with
  | none => exact absurd ((hp f).mpr hf) (by simp [Field.find?_all_none hfind f])
  | some g =>
    obtain ⟨hg, hleast⟩ := Field.find?_all hfind
    have hle : f.index ≤ g.index := hmin g ((hp g).mp hg)
    have hge : g.index ≤ f.index := hleast f ((hp f).mpr hf)
    rw [Field.index_inj (Nat.le_antisymm hge hle)]

theorem find?_all_of_forall_not {P : Field → Prop} {p : Field → Bool} (hp : ∀ f, p f = true ↔ P f)
    (h : ∀ f, ¬ P f) : Field.all.find? p = none :=
  List.find?_eq_none.mpr fun f _ hf => h f ((hp f).mp hf)

section
variable {b : Build} {given : Given}

theorem lacking_iff (f : Field) :
    ((given.get f).isSome && !has b.profile f) = true ↔ Lacking b given f := by
  simp [Lacking, Option.isSome_iff_ne_none]

theorem illegal_iff (f : Field) :
    ((given.get f).any fun sym => !legal b.drTable f sym) = true ↔ Illegal b given f := by
  simp [Illegal, Option.any_eq_true]

theorem absent_iff (f : Field) :
    (f != .os && has b.profile f && (given.get f).isNone) = true ↔ Absent b given f := by
  simp [Absent, and_assoc]

theorem capabilityProblem_of_none (h : ∀ f, ¬ Lacking b given f) : capabilityProblem b given = none := by
  rw [capabilityProblem, find?_all_of_forall_not lacking_iff h, Option.map_none]

/-- R103: GATE raises the error its two passes find. -/
theorem gate_of_raises {p : Problem} (h : GateRaises b given p) : gate b given = some p := by
  rcases h with ⟨f, hfirst, rfl⟩ | ⟨hnone, f, hfirst, rfl⟩
  · simp only [gate, capabilityProblem, find?_all_of_first lacking_iff hfirst, Option.map_some, errField]
  · simp only [gate, capabilityProblem_of_none hnone, domainProblem, find?_all_of_first illegal_iff hfirst,
      Option.map_some, errField]

theorem gate_of_passes (h : GatePasses b given) : gate b given = none := by
  have hlegal : domainProblem b given = none := by
    rw [domainProblem, find?_all_of_forall_not illegal_iff fun f => (h f).2, Option.map_none]
  simp only [gate, capabilityProblem_of_none fun f => (h f).1, hlegal]

theorem encodeProblem_of_raises {p : Problem} (h : GateRaises b given p) : encodeProblem b given = some p := by
  simp only [encodeProblem, gate_of_raises h]

theorem encodeProblem_of_absent {f : Field} (h : GatePasses b given) (hfirst : First (Absent b given) f) :
    encodeProblem b given = some ⟨.invalidFieldValue, BitVec.ofNat 4 f.index⟩ := by
  simp only [encodeProblem, gate_of_passes h, absentProblem, find?_all_of_first absent_iff hfirst, Option.map_some,
    errField]

theorem encodeProblem_of_complete (h : GatePasses b given) (hcomplete : ∀ f, ¬ Absent b given f) :
    encodeProblem b given = none := by
  simp only [encodeProblem, gate_of_passes h, absentProblem, find?_all_of_forall_not absent_iff hcomplete,
    Option.map_none]

end

/-! ## ENCODE and UPDATE by the outcome of their checks (R104, R106) -/

theorem exec_encode_of_problem {given : Given} {s : State} {p : Problem} (h : encodeProblem s.build given = some p) :
    exec (.encode given) s = .next (s.raise p) := by
  rw [exec_eq, responseTo, h]
  rfl

theorem exec_encode_of_ok {given : Given} {s : State} (h : encodeProblem s.build given = none) :
    exec (.encode given) s = .next (s.respond { wordOut := encWord s.build (encodeSymbols given) }) := by
  rw [exec_eq, responseTo, h]
  rfl

theorem exec_update_of_problem {given : Given} {s : State} {p : Problem} (h : gate s.build given = some p) :
    exec (.update given) s = .next (s.raise p) := by
  rw [exec_eq, responseTo, cfgAfter, h]
  rfl

theorem exec_update_of_ok {given : Given} {s : State} (h : gate s.build given = none) :
    exec (.update given) s = .next ((s.commit (mergeSymbols s.cfg given)).respond
      { wordOut := encWord s.build (mergeSymbols s.cfg given), wrValid := true, wrPtr := 1 }) := by
  rw [exec_eq, responseTo, cfgAfter, h]
  rfl

/-! ## START as an UPDATE (R107) -/

/-- The operands of an UPDATE that gives `os=start_one_shot` and no other field. -/
def startGiven : Given := ⟨some 2, none, none, none, none, none, none, none, none⟩

theorem gate_startGiven (b : Build) : gate b startGiven = none := by
  refine gate_of_passes fun f => ?_
  cases f
  case os => exact ⟨by simp [Lacking, has_os], by simp [Illegal, startGiven, Slots.get, legal]⟩
  all_goals exact ⟨fun h => h.1 rfl, fun ⟨_, h, _⟩ => nomatch h⟩

theorem get_startSymbols (cfg : Slots Sym) (f : Field) :
    (startSymbols cfg).get f = if f = .os then 2 else cfg.get f := by
  cases f <;> rfl

theorem mergeSymbols_startGiven (cfg : Slots Sym) : mergeSymbols cfg startGiven = startSymbols cfg := rfl

/-- The commit leaves OS as it is, and START changes no other symbol. -/
theorem commit_startSymbols (s : State) : s.commit (startSymbols s.cfg) = s := by
  have hcfg : (s.commit (startSymbols s.cfg)).cfg = s.cfg := by
    refine Slots.ext_get fun f => ?_
    rw [State.commit_cfg, Slots.get_ofFn]
    split
    case isTrue h => rw [get_startSymbols, if_neg h.1]
    case isFalse => rfl
  calc s.commit (startSymbols s.cfg) = { s with cfg := (s.commit (startSymbols s.cfg)).cfg } := rfl
    _ = s := by rw [hcfg]

end Sys2Proof.Machine

namespace Sys2Proof.Proofs

open Sys2Proof.Machine Sys2Proof.Claims

/-- Settles O18: the first form is the definition with its mask written as a shift; the second is `code_toNat`. -/
theorem codeIsASliceOfTheWord : Obligations.CodeIsASliceOfTheWord := by
  intro f w
  have hmask : (1 : BitVec 8) <<< (descriptor f).bitWidth - 1 = BitVec.ofNat 8 (2 ^ width f - 1) := by
    cases f <;> rfl
  refine ⟨?_, code_toNat f w⟩
  rw [hmask]
  rfl

/-- Settles O20: the decoder reads back each field's canonical code, which decodes to its symbol, OS apart. -/
theorem codecRoundTrip : Obligations.CodecRoundTrip := by
  intro b m hlegal f hf
  rw [get_decWord _ hf, code_encWord m hf, encCode_of_legal (hlegal f hf)]
  split
  case isTrue hos =>
    subst hos
    exact congrArg some (decCode_canonicalCode_os _ _)
  case isFalse hos => rw [decCode_canonicalCode hos (hlegal f hf)]

/-- Settles O21: each field comes back with the canonical code of its symbol, which is 0 for OS. -/
theorem reencodeIsCanonical : Obligations.ReencodeIsCanonical := by
  refine ⟨?_, by decide⟩
  intro b w v
  have hv : v = encWord b (decodedSymbols b w) := rfl
  rw [hv]
  refine ⟨?_, fun k => getLsbD_encWord_of_not_owned _, fun f hos hf => ?_⟩
  · have hcode : fieldBits .os (encWord b (decodedSymbols b w)) = 0 := by
      rw [fieldBits_encWord_decodedSymbols w (has_os _), canonicalCode_decCode_os]
      rfl
    rw [← code_toNat, code_encWord _ (has_os _)] at hcode
    rw [getLsbD_encWord_15, BitVec.getLsbD, hcode, Nat.zero_testBit]
  · rw [fieldBits_encWord_decodedSymbols w hf, canonicalCode_decCode _ hos, code_toNat]

/-- Settles O22: each clause decides ENCODE's checks, and the word is the encoder's. -/
theorem encodeOutcome : Obligations.EncodeOutcome := by
  refine fun given s => ⟨fun p h => ?_, fun f hpass hfirst => ?_, fun hpass hcomplete => ?_⟩
  · exact exec_encode_of_problem (encodeProblem_of_raises h)
  · exact exec_encode_of_problem (encodeProblem_of_absent hpass hfirst)
  · exact ⟨_, exec_encode_of_ok (encodeProblem_of_complete hpass hcomplete),
      wordHolds_encWord _ fun f => Slots.get_ofFn _ f⟩

/-- Settles O23: what the response packs is what the word decodes to. -/
theorem decodeOutcome : Obligations.DecodeOutcome := by
  refine fun w s => ⟨_, _, exec_eq (.decode w) s, fun f => ⟨?_, ?_⟩⟩
  · rw [getLsbD_packValid, isSome_get_decWord]
  · rw [extractLsb'_packSymbols, getD_get_decWord]

/-- Settles O24: GATE decides UPDATE; the word and the commit are of the merged symbols. -/
theorem updateOutcome : Obligations.UpdateOutcome := by
  refine fun given s => ⟨fun p h => exec_update_of_problem (gate_of_raises h), fun hpass => ?_⟩
  refine ⟨_, _, exec_update_of_ok (gate_of_passes hpass), wordHolds_encWord _ fun f => Slots.get_ofFn _ f, fun f => ?_⟩
  rw [State.commit_cfg, Slots.get_ofFn, mergeSymbols, Slots.get_ofFn]
  split
  case isTrue h => rw [if_neg h.1]
  case isFalse => rfl

/-- Settles O25: an UPDATE of OS alone merges to START's symbols and commits nothing. -/
theorem startOutcome : Obligations.StartOutcome := by
  refine fun s => ⟨⟨_, exec_eq .start s, ?_, wordHolds_encWord _ (get_startSymbols s.cfg)⟩, ?_⟩
  · have hcode : encCode s.build.drTable .os 2 = 1 := encCode_of_legal rfl
    rw [getLsbD_encWord_15, get_startSymbols, if_pos rfl, hcode]
    rfl
  · change exec (.update startGiven) s = _
    rw [exec_update_of_ok (gate_startGiven s.build), mergeSymbols_startGiven, commit_startSymbols, exec_eq]
    rfl

/-- Settles O26: of the word only the code of OS is read, which is bit 15. -/
theorem busyOutcome : Obligations.BusyOutcome := by
  intro w s
  rw [exec_eq, responseTo, decCode_os_eq_one]
  rfl

/-- Settles O27: by the inversion lemma of `exec`. -/
theorem resetOutcome : Obligations.ResetOutcome := fun s => exec_eq .reset s

end Sys2Proof.Proofs

/-! # The sample scaler and the threshold codec: what a sample, a gain and a threshold word are as integers, and the
outcome of each command -/

namespace Sys2Proof.Machine

open Sys2Proof.Claims

/-! ## Samples (R84, R140) -/

/-- R84, R145: the upper 12 bits of a word as a signed number are the word shifted right by 4. -/
theorem toInt_extractLsb'_4_12 (w : Word) : (w.extractLsb' 4 12).toInt = w.toInt / 16 := by
  have hnat : (w.extractLsb' 4 12).toNat = w.toNat / 16 % 4096 := by
    rw [BitVec.extractLsb'_toNat, Nat.shiftRight_eq_div_pow]
  rw [BitVec.toInt_eq_toNat_cond, BitVec.toInt_eq_toNat_cond, hnat]
  have := w.isLt
  split <;> split <;> omega

theorem rawSample_eq_sample (w : Word) : rawSample w = sample w := by
  rw [rawSample, sample, toInt_extractLsb'_4_12]

/-- A sample is a 12-bit signed number. -/
theorem rawSample_bounds (w : Word) : -2048 ≤ rawSample w ∧ rawSample w ≤ 2047 := by
  have hle := BitVec.le_toInt (w.extractLsb' 4 12)
  have hlt := BitVec.toInt_lt (x := w.extractLsb' 4 12)
  unfold rawSample
  split <;> omega

/-- `raw12` reports the sample without loss. -/
theorem toInt_ofInt_rawSample (w : Word) : (BitVec.ofInt 12 (rawSample w)).toInt = rawSample w := by
  have := rawSample_bounds w
  exact BitVec.toInt_ofInt_eq_self (by decide) (by omega) (by omega)

/-- R142: the product of a sample and a multiplier up to the largest one, 24, fits 17 bits. -/
theorem toInt_scaled_rawSample (w : Word) {m : Nat} (hm : m ≤ 24) :
    (scaled (rawSample w) m).toInt = rawSample w * m := by
  obtain ⟨hlow, hhigh⟩ := rawSample_bounds w
  have hlower : -2048 * 24 ≤ rawSample w * m := by nlinarith
  have hupper : rawSample w * m ≤ 2047 * 24 := by nlinarith
  exact BitVec.toInt_ofInt_eq_self (by decide) (by omega) (by omega)

/-! ## Gains (R75, R141) -/

/-- R22: `base` is the profile without a gain. -/
theorem has_pga_eq_true_iff (p : Profile) : has p .pga = true ↔ p ≠ .base := by cases p <;> decide

/-- R141: a multiplier is the full-scale range in units of 256 mV, and is at most 24. -/
theorem fsr_eq_mult {sym : Sym} (h : sym.toNat ≤ 5) : fsr sym = 256 * mult sym ∧ mult sym ≤ 24 := by
  revert sym
  decide

theorem gainProblem_of_base {b : Build} {gain : Option Sym} (hb : b.profile = .base) (hg : gain ≠ none) :
    gainProblem b gain = some ⟨.unsupportedOperation, 2⟩ := by
  obtain ⟨sym, rfl⟩ := Option.ne_none_iff_exists'.mp hg
  rw [gainProblem, hb]
  rfl

theorem gainProblem_of_illegal {b : Build} {sym : Sym} (hb : b.profile ≠ .base) (hsym : 5 < sym.toNat) :
    gainProblem b (some sym) = some ⟨.invalidFieldValue, 2⟩ := by
  have hillegal : legal b.drTable .pga sym = false := decide_eq_false (Nat.not_le.mpr hsym)
  rw [gainProblem, (has_pga_eq_true_iff _).mpr hb, hillegal]
  rfl

theorem gainProblem_of_legal {b : Build} {gain : Option Sym} {default : Sym} (hb : b.profile ≠ .base)
    (hsym : (gain.getD default).toNat ≤ 5) : gainProblem b gain = none := by
  cases gain with
  | none => rfl
  | some sym =>
    have hlegal : legal b.drTable .pga sym = true := decide_eq_true hsym
    rw [gainProblem, (has_pga_eq_true_iff _).mpr hb, hlegal]
    rfl

/-! ## CONV by the outcome of its checks (R143) -/

/-- The response of CONV with the multiplier `m`. -/
def readingOf (w : Word) (m : Nat) : Response :=
  { raw12 := BitVec.ofInt 12 (rawSample w), scaledQ3 := scaled (rawSample w) m }

theorem reports_readingOf (w : Word) {m : Nat} (hm : m ≤ 24) : Reports (readingOf w m) (sample w) (256 * m) := by
  rw [← rawSample_eq_sample]
  refine ⟨rfl, toInt_ofInt_rawSample w, ?_⟩
  rw [readingOf, toInt_scaled_rawSample w hm]
  ring

theorem exec_conv_of_problem {gain : Option Sym} {s : State} {p : Problem} (w : Word)
    (h : gainProblem s.build gain = some p) : exec (.conv gain w) s = .next (s.raise p) := by
  rw [exec_eq, responseTo, h]
  rfl

theorem exec_conv_of_ok {gain : Option Sym} {s : State} (w : Word) (h : gainProblem s.build gain = none) :
    exec (.conv gain w) s = .next (s.respond (readingOf w (convMult s.build s.cfg gain))) := by
  rw [exec_eq, responseTo, h]
  rfl

/-! ## Thresholds (R85, R144, R145) -/

/-- R144: the model's threshold word of a 16-bit value is the spec's. -/
theorem thresholdWord_toInt (t : Word) : thresholdWord t.toInt = (t &&& 0xFFF) <<< 4 := by
  have hlow : BitVec.ofInt 12 t.toInt = t.setWidth 12 := BitVec.signExtend_eq_setWidth_of_le t (by decide)
  rw [thresholdWord, hlow]
  congr 1
  apply BitVec.eq_of_toNat_eq
  rw [BitVec.toNat_setWidth, BitVec.toNat_setWidth, BitVec.toNat_and]
  have hmask : (0xFFF : Word).toNat = 2 ^ 12 - 1 := rfl
  rw [hmask, Nat.and_two_pow_sub_one_eq_mod]
  omega

/-- The upper 12 bits of a threshold word are the threshold. -/
theorem extractLsb'_thresholdWord (t : Int) : (thresholdWord t).extractLsb' 4 12 = BitVec.ofInt 12 t := by
  refine BitVec.eq_of_getLsbD_eq fun k hk => ?_
  have h16 : 4 + k < 16 := by omega
  simp [thresholdWord, hk, h16]

/-- R147: a threshold in range comes back from its word. -/
theorem toInt_extractLsb'_thresholdWord {t : Int} (hlow : -2048 ≤ t) (hhigh : t ≤ 2047) :
    ((thresholdWord t).extractLsb' 4 12).toInt = t := by
  rw [extractLsb'_thresholdWord]
  exact BitVec.toInt_ofInt_eq_self (by decide) (by omega) (by omega)

theorem registerProblem_of_base {b : Build} (reg : ChipReg) (hb : b.profile = .base) :
    registerProblem b reg = some ⟨.unsupportedOperation, 0xF⟩ := if_pos hb

theorem registerProblem_of_no_threshold {b : Build} {reg : ChipReg} (hreg : reg = .conversion ∨ reg = .configuration) :
    registerProblem b reg = some ⟨.unsupportedOperation, 0xF⟩ := by
  unfold registerProblem
  rcases hreg with rfl | rfl <;> exact ite_self _

theorem registerProblem_of_threshold {b : Build} {reg : ChipReg} (hb : b.profile ≠ .base)
    (hreg : reg = .lowThreshold ∨ reg = .highThreshold) : registerProblem b reg = none := by
  rw [registerProblem, if_neg hb]
  rcases hreg with rfl | rfl <;> rfl

/-! ## SETTH and GETTH by the outcome of their checks (R144, R145) -/

section
variable {reg : ChipReg} {t w : Word} {s : State} {p : Problem}

theorem exec_setth_of_registerProblem (h : registerProblem s.build reg = some p) :
    exec (.setth reg t) s = .next (s.raise p) := by
  rw [exec_eq, responseTo, thresholdProblem, h]
  rfl

theorem exec_setth_of_out_of_range (h : registerProblem s.build reg = none)
    (ht : t.toInt < -2048 ∨ 2047 < t.toInt) : exec (.setth reg t) s = .next (s.raise ⟨.outOfRange, 0xF⟩) := by
  simp only [exec_eq, responseTo, thresholdProblem, h, if_pos ht]
  rfl

theorem exec_setth_of_ok (h : registerProblem s.build reg = none) (hlow : -2048 ≤ t.toInt) (hhigh : t.toInt ≤ 2047) :
    exec (.setth reg t) s =
      .next (s.respond { wordOut := thresholdWord t.toInt, wrValid := true, wrPtr := reg.pointer }) := by
  have ht : ¬ (t.toInt < -2048 ∨ 2047 < t.toInt) := by omega
  simp only [exec_eq, responseTo, thresholdProblem, h, if_neg ht]
  rfl

theorem exec_getth_of_problem (h : registerProblem s.build reg = some p) :
    exec (.getth reg w) s = .next (s.raise p) := by
  rw [exec_eq, responseTo, h]
  rfl

theorem exec_getth_of_ok (h : registerProblem s.build reg = none) :
    exec (.getth reg w) s = .next (s.respond { thValue := w.extractLsb' 4 12 }) := by
  rw [exec_eq, responseTo, h]
  rfl

end

end Sys2Proof.Machine

namespace Sys2Proof.Proofs

open Sys2Proof.Machine Sys2Proof.Claims

/-- Settles O28: each clause decides the check of the gain; the full-scale range is 256 mV times the multiplier, which
is 8 on `base`. -/
theorem convOutcome : Obligations.ConvOutcome := by
  refine fun gain w s => ⟨fun hb hg => ?_, ?_, ?_, fun hb hsym => ?_⟩
  · exact exec_conv_of_problem w (gainProblem_of_base hb hg)
  · rintro hb ⟨sym, rfl, hsym⟩
    exact exec_conv_of_problem w (gainProblem_of_illegal hb hsym)
  · rintro hb rfl
    have hmult : convMult s.build s.cfg none = 8 := by rw [convMult, hb]; rfl
    exact ⟨_, exec_conv_of_ok w rfl, hmult ▸ reports_readingOf w (m := 8) (by decide)⟩
  · have hmult : convMult s.build s.cfg gain = mult (gain.getD s.cfg.pga) :=
      if_pos ((has_pga_eq_true_iff _).mpr hb)
    obtain ⟨hfsr, hle⟩ := fsr_eq_mult hsym
    refine ⟨_, exec_conv_of_ok w (gainProblem_of_legal hb hsym), ?_⟩
    rw [hmult, hfsr]
    exact reports_readingOf w hle

/-- Settles O29: the profile, the pointer and the range decide SETTH's checks in turn. -/
theorem setthOutcome : Obligations.SetthOutcome := by
  refine fun reg t s => ⟨fun hb => ?_, fun _ hreg => ?_, fun hb hreg => ⟨fun ht => ?_, fun ⟨hlow, hhigh⟩ => ?_⟩⟩
  · exact exec_setth_of_registerProblem (registerProblem_of_base reg hb)
  · exact exec_setth_of_registerProblem (registerProblem_of_no_threshold hreg)
  · exact exec_setth_of_out_of_range (registerProblem_of_threshold hb hreg) ht
  · have hptr : reg.pointer = if reg = .lowThreshold then 2 else 3 := by rcases hreg with rfl | rfl <;> rfl
    rw [exec_setth_of_ok (registerProblem_of_threshold hb hreg) hlow hhigh, thresholdWord_toInt, hptr]

/-- Settles O30: the profile and the pointer decide GETTH's checks; its value is the upper 12 bits of the word. -/
theorem getthOutcome : Obligations.GetthOutcome := by
  refine fun reg w s => ⟨fun h => exec_getth_of_problem ?_, fun hb hreg => ?_⟩
  · rcases h with hb | hreg
    · exact registerProblem_of_base reg hb
    · exact registerProblem_of_no_threshold hreg
  · exact ⟨_, exec_getth_of_ok (registerProblem_of_threshold hb hreg), toInt_extractLsb'_4_12 w⟩

/-- Settles O31: the upper 12 bits of SETTH's word are the value; the word of -1 is 0xFFF0, the one that R140 excepts. -/
theorem thresholdRoundTrip : Obligations.ThresholdRoundTrip := by
  refine ⟨fun reg t s hb hreg hlow hhigh => ?_, fun reg s hb hreg => ?_⟩
  · have hok := registerProblem_of_threshold hb hreg
    exact ⟨_, _, exec_setth_of_ok hok hlow hhigh, exec_getth_of_ok hok, toInt_extractLsb'_thresholdWord hlow hhigh⟩
  · have hword : rawSample (thresholdWord (0xFFFF : Word).toInt) = -2048 := by decide
    exact ⟨_, exec_setth_of_ok (registerProblem_of_threshold hb hreg) (by decide) (by decide), hword⟩

/-- Settles O32: both sides are successes of CONV (O28) with a full-scale range of 2048 mV. -/
theorem baseReadingsAreIntegers : Obligations.BaseReadingsAreIntegers := by
  intro gain w s h
  obtain ⟨-, -, hbase, hgain⟩ := convOutcome gain w s
  have hreports : ∃ r, exec (.conv gain w) s = .next (s.respond r) ∧ Reports r (sample w) 2048 := by
    rcases h with ⟨hb, hnone⟩ | ⟨hb, hsym⟩
    · exact hbase hb hnone
    · rw [hsym] at hgain
      exact hgain hb (by decide)
  obtain ⟨r, hexec, hr, hraw, hscaled⟩ := hreports
  exact ⟨r, hexec, by rw [hr], hraw, by omega⟩

end Sys2Proof.Proofs

/-! # The host's sequences: the word of a command decodes to it, and what a call comes to that reads a register and then
runs a command, or runs a command and then writes a register -/

namespace Sys2Proof

/-! ## An operand in its place, and the bits beside it (R60) -/

/-- Nothing is put into bits above or below an operand's place. -/
theorem extractLsb'_place_of_disjoint {n : Nat} (v : BitVec n) {lo start len : Nat}
    (h : lo + n ≤ start ∨ start + len ≤ lo) : (place v lo).extractLsb' start len = 0 := by
  refine BitVec.eq_of_getLsbD_eq fun k hk => ?_
  rw [BitVec.getLsbD_extractLsb', getLsbD_place]
  rcases h with habove | hbelow
  · simp [BitVec.getLsbD_of_ge v (start + k - lo) (by omega)]
  · simp [show ¬ lo ≤ start + k by omega]

theorem extractLsb'_place {n : Nat} (v : BitVec n) {lo : Nat} (h : lo + n ≤ 64) :
    (place v lo).extractLsb' lo n = v := by
  refine BitVec.eq_of_getLsbD_eq fun k hk => ?_
  rw [BitVec.getLsbD_extractLsb', getLsbD_place]
  simp [hk, show lo + k < 64 by omega]

/-- The `present` bits lie between `op` and the data word (R60). -/
theorem presentField_place_of_disjoint {n : Nat} (v : BitVec n) {lo : Nat} (h : lo + n ≤ 6 ∨ 15 ≤ lo) (f : Field) :
    presentField (place v lo) f = false := by
  have hindex : f.index ≤ 8 := by cases f <;> decide
  rw [presentField, getLsbD_place]
  rcases h with hlow | hhigh
  · simp [BitVec.getLsbD_of_ge v (6 + f.index - lo) (by omega)]
  · simp [show ¬ lo ≤ 6 + f.index by omega]

/-- The `sym` slots lie between the `present` bits and the data word (R60). -/
theorem symField_place_of_disjoint {n : Nat} (v : BitVec n) {lo : Nat} (h : lo + n ≤ 16 ∨ 43 ≤ lo) (f : Field) :
    symField (place v lo) f = 0 := by
  have hindex : f.index ≤ 8 := by cases f <;> decide
  exact extractLsb'_place_of_disjoint v (by omega)

theorem presentField_placeGiven (given : Given) (f : Field) :
    presentField (placeGiven given) f = (given.get f).isSome := by
  rw [Bool.eq_iff_iff, presentField, placeGiven, Machine.getLsbD_union_iff fun g => placeField g (given.get g)]
  have hpart (g : Field) : (placeField g (given.get g)).getLsbD (6 + f.index) =
      (decide (g = f) && (given.get g).isSome) := presentField_placeField g f _
  simp [hpart]

theorem symField_placeGiven (given : Given) (f : Field) :
    symField (placeGiven given) f = (given.get f).getD 0 := by
  simp only [placeGiven, Field.all, List.foldr, symField_or, symField_placeField]
  cases f <;> simp [symField]

/-! ## The word of an instruction decodes to it (R64, R88) -/

theorem opField_encode (i : Instr) : opField (encode i) = i.op := by
  rw [encode, opField_or, opField_op, opField_operands]
  exact BitVec.or_zero

theorem encode_reserved_zero (i : Instr) : encode i &&& reservedMask = 0 :=
  reserved_or (reserved_op i) (reserved_operands i)

/-- Where `op` stands there is no other operand. -/
theorem presentField_encode (i : Instr) (f : Field) : presentField (encode i) f = presentField i.operands f := by
  rw [encode, presentField_or, presentField_place_of_disjoint _ (by decide), Bool.false_or]

theorem symField_encode (i : Instr) (f : Field) : symField (encode i) f = symField i.operands f := by
  rw [encode, symField_or, symField_place_of_disjoint _ (by decide)]
  exact BitVec.zero_or

theorem ptrField_encode (i : Instr) : ptrField (encode i) = ptrField i.operands := by
  have hop : ptrField (place i.op 0) = 0 := extractLsb'_place_of_disjoint _ (by decide)
  rw [encode, ptrField_or, hop]
  exact BitVec.zero_or

theorem dataField_encode (i : Instr) : dataField (encode i) = dataField i.operands := by
  have hop : dataField (place i.op 0) = 0 := extractLsb'_place_of_disjoint _ (by decide)
  rw [encode, dataField_or, hop]
  exact BitVec.zero_or

theorem givenField_eq {w : Command} {f : Field} {o : Option Sym} (hpresent : presentField w f = o.isSome)
    (hsym : symField w f = o.getD 0) : givenField w f = o := by
  rw [givenField, hpresent, hsym]
  cases o <;> rfl

theorem givenFields_encode {i : Instr} {given : Given} (h : i.operands = placeGiven given) :
    givenFields (encode i) = given := by
  refine Slots.ext_get fun f => ?_
  rw [givenFields, Slots.get_ofFn]
  refine givenField_eq ?_ ?_
  · rw [presentField_encode, h, presentField_placeGiven]
  · rw [symField_encode, h, symField_placeGiven]

theorem givenField_encode_conv (gain : Option Sym) (data : Word) :
    givenField (encode (.conv gain data)) .pga = gain := by
  refine givenField_eq ?_ ?_
  · rw [presentField_encode, Instr.operands, presentField_or, presentField_placeField,
      presentField_place_of_disjoint _ (by decide)]
    simp
  · rw [symField_encode, Instr.operands, symField_or, symField_placeField, symField_place_of_disjoint _ (by decide)]
    simp

/-- The data word beside an operand that ends below it. -/
theorem dataField_encode_of_operands {i : Instr} {low : Command} {data : Word}
    (h : i.operands = low ||| place data 48) (hlow : dataField low = 0) : dataField (encode i) = data := by
  rw [dataField_encode, h, dataField_or, hlow, dataField_place_data]
  exact BitVec.zero_or

theorem dataField_placeField (f : Field) (o : Option Sym) : dataField (placeField f o) = 0 := by
  cases o with
  | none => exact BitVec.extractLsb'_zero
  | some sym => cases f <;> revert sym <;> decide

theorem dataField_pointer (reg : ChipReg) : dataField (place reg.pointer 4) = 0 :=
  extractLsb'_place_of_disjoint _ (by decide)

theorem ofPointer_ptrField_encode {i : Instr} {reg : ChipReg} {data : Word}
    (h : i.operands = place reg.pointer 4 ||| place data 48) : ChipReg.ofPointer (ptrField (encode i)) = reg := by
  have hptr : ptrField (place reg.pointer 4) = reg.pointer := extractLsb'_place _ (by decide)
  have hdata : ptrField (place data 48) = 0 := extractLsb'_place_of_disjoint _ (by decide)
  rw [ptrField_encode, h, ptrField_or, hptr, hdata]
  cases reg <;> rfl

theorem decodeOp_encode (i : Instr) : decodeOp (encode i) = .instr i := by
  unfold decodeOp
  rw [opField_encode]
  cases i with
  | encode given =>
    change Decoded.instr (.encode (givenFields _)) = _
    rw [givenFields_encode (given := given) rfl]
  | decode data =>
    change Decoded.instr (.decode (dataField _)) = _
    rw [dataField_encode, Instr.operands, dataField_place_data]
  | update given =>
    change Decoded.instr (.update (givenFields _)) = _
    rw [givenFields_encode (given := given) rfl]
  | start => rfl
  | busy data =>
    change Decoded.instr (.busy (dataField _)) = _
    rw [dataField_encode, Instr.operands, dataField_place_data]
  | reset => rfl
  | conv gain data =>
    change Decoded.instr (.conv (givenField _ .pga) (dataField _)) = _
    rw [givenField_encode_conv, dataField_encode_of_operands rfl (dataField_placeField _ _)]
  | setth reg data =>
    change Decoded.instr (.setth (ChipReg.ofPointer (ptrField _)) (dataField _)) = _
    rw [ofPointer_ptrField_encode rfl, dataField_encode_of_operands rfl (dataField_pointer _)]
  | getth reg data =>
    change Decoded.instr (.getth (ChipReg.ofPointer (ptrField _)) (dataField _)) = _
    rw [ofPointer_ptrField_encode rfl, dataField_encode_of_operands rfl (dataField_pointer _)]

theorem decode_encode (i : Instr) : decode (encode i) = .instr i := by
  rw [decode_of_reserved_zero (encode_reserved_zero i), decodeOp_encode]

end Sys2Proof

namespace Sys2Proof.Machine

open Sys2Proof.Claims

/-! ## Runs, and the first step of a call -/

theorem reaches_zero (s : State) : Reaches 0 s s := rfl

theorem reaches_succ {k : Nat} {s t u : State} (h : step s = .next u) (hrun : Reaches k u t) : Reaches (k + 1) s t := by
  have hcore : core.step s = .next u := h
  unfold Reaches
  simp only [Host.Core.run, hcore]
  exact hrun

theorem reaches_one {s t : State} (h : step s = .next t) : Reaches 1 s t := reaches_succ h (reaches_zero t)

theorem step_of_port_nil {s : State} (h : s.port = []) : step s = sessionStep s := by
  simp only [step, fetch, h]

theorem step_of_calling {s : State} {c : Call} {rest : List Call} (h : Calling s c rest) :
    step s = beginCall c (s.takeCall rest) := by
  obtain ⟨hport, hphase, hcalls⟩ := h
  simp only [step_of_port_nil hport, sessionStep, hphase, hcalls]

/-! ## A command issued and answered (R181) -/

/-- The host waits in phase `p`, and the response to the command `i` it issued in `s` is there. -/
def State.answered (s : State) (i : Instr) (p : Phase) : State :=
  { s with
    cfg := cfgAfter s.build s.cfg i, port := [], response := some (responseTo s.build s.cfg i)
    session := { s.session with phase := p } }

section
variable (s : State) (i : Instr) (p : Phase)

@[simp] theorem State.answered_cfg : (s.answered i p).cfg = cfgAfter s.build s.cfg i := rfl
@[simp] theorem State.answered_port : (s.answered i p).port = [] := rfl
@[simp] theorem State.answered_session : (s.answered i p).session = { s.session with phase := p } := rfl
@[simp] theorem State.answered_trace : (s.answered i p).trace = s.trace := rfl
@[simp] theorem State.answered_draw : (s.answered i p).draw = s.draw := rfl

end

@[simp] theorem State.takeCall_draw (s : State) (rest : List Call) : (s.takeCall rest).draw = s.draw := rfl
@[simp] theorem State.takeCall_readAnswer (s : State) (rest : List Call) (reg : ChipReg) :
    (s.takeCall rest).readAnswer reg = s.readAnswer reg := rfl

theorem step_ask (s : State) (i : Instr) (p : Phase) : step (s.ask i p) = .next (s.answered i p) := by
  rw [step_of_instr (State.ask_port s i p) (decode_encode i), exec_eq]
  rfl

/-- A phase that waits takes the response. -/
theorem step_answered (s : State) (i : Instr) {p : Phase} (hp : p.awaits = true) :
    step (s.answered i p) = .next (onResponse p (responseTo s.build s.cfg i) (s.answered i p)) := by
  rw [step_of_port_nil rfl]
  cases p
  case idle | poll | shotRead => cases hp
  all_goals rfl

theorem reaches_ask (s : State) (i : Instr) {p : Phase} (hp : p.awaits = true) :
    Reaches 2 (s.ask i p) (onResponse p (responseTo s.build s.cfg i) (s.answered i p)) :=
  reaches_succ (step_ask s i p) (reaches_one (step_answered s i hp))

/-! ## A register read, and then a command on the word (R173, R175-R177) -/

section
variable {s : State} {rest : List Call} {reg : ChipReg}

theorem readThen_of_some {w : Word} (h : s.readAnswer reg = some w) (k : Word → State → State) :
    s.readThen reg k = k w (s.afterRead reg) := by
  simp only [State.readThen, h]

theorem readThen_of_none (h : s.readAnswer reg = none) (k : Word → State → State) :
    s.readThen reg k = (s.afterRead reg).finish (.failed .transportError) := by
  simp only [State.readThen, h]

/-- With the word read, the host goes on with what the command answers of it. -/
theorem reaches_readThen_ask {w : Word} {i : Word → Instr} {p : Phase} (hp : p.awaits = true)
    (hstep : step s = .next ((s.takeCall rest).readThen reg fun w u => u.ask (i w) p))
    (hw : s.readAnswer reg = some w) :
    Reaches 3 s (onResponse p (responseTo s.build s.cfg (i w)) (((s.takeCall rest).afterRead reg).answered (i w) p)) := by
  have hread : step s = .next (((s.takeCall rest).afterRead reg).ask (i w) p) := by
    rw [hstep, readThen_of_some (s := s.takeCall rest) hw]
  have hask := reaches_succ hread (reaches_ask _ (i w) hp)
  rwa [State.afterRead_build, State.afterRead_cfg] at hask

/-- The sequence reads `w` from `reg`, and ends in three steps with what `res` makes of the response to the command. -/
theorem read_ends_with_response {w : Word} {i : Word → Instr} {p : Phase} {res : Response → CallResult}
    (hp : p.awaits = true) (hfinish : ∀ r u, onResponse p r u = u.finish (res r))
    (hcfg : cfgAfter s.build s.cfg (i w) = s.cfg)
    (hstep : step s = .next ((s.takeCall rest).readThen reg fun w u => u.ask (i w) p))
    (hw : s.readAnswer reg = some w) :
    ∃ t, Reaches 3 s t ∧ t.cfg = s.cfg ∧ Ended t rest (res (responseTo s.build s.cfg (i w))) ∧
      t.trace = readEvent (pointerByte reg) w :: s.trace := by
  have hreach := reaches_readThen_ask hp hstep hw
  rw [hfinish] at hreach
  exact ⟨_, hreach, by simpa using hcfg, ⟨rfl, by simp⟩, by simp [hw, readEvent]⟩

/-- The same, with the response named through the command. -/
theorem read_ends_with_answer {w : Word} {i : Word → Instr} {p : Phase} {res : Response → CallResult}
    (hp : p.awaits = true) (hfinish : ∀ r u, onResponse p r u = u.finish (res r))
    (hcfg : cfgAfter s.build s.cfg (i w) = s.cfg)
    (hstep : step s = .next ((s.takeCall rest).readThen reg fun w u => u.ask (i w) p))
    (hw : s.readAnswer reg = some w) :
    ∃ t u r, exec (i w) s = .next u ∧ u.response = some r ∧ Reaches 3 s t ∧ t.cfg = s.cfg ∧
      Ended t rest (res r) ∧ t.trace = readEvent (pointerByte reg) w :: s.trace := by
  obtain ⟨t, hends⟩ := read_ends_with_response hp hfinish hcfg hstep hw
  exact ⟨t, _, _, exec_eq (i w) s, rfl, hends⟩

/-- R179: a `TransportError` ends the sequence at once. -/
theorem lost_read_ends {k : Word → State → State} (hport : s.port = [])
    (hstep : step s = .next ((s.takeCall rest).readThen reg k)) (hlost : s.readAnswer reg = none) :
    ∃ t, Reaches 1 s t ∧ t.cfg = s.cfg ∧ Ended t rest (.failed .transportError) ∧
      t.trace = .read (pointerByte reg) none :: s.trace := by
  rw [readThen_of_none (s := s.takeCall rest) hlost] at hstep
  exact ⟨_, reaches_one hstep, by simp, ⟨by simpa using hport, by simp⟩, by simp [hlost]⟩

/-! ## A command, and then the write of its word (R171, R172, R176) -/

/-- A write that nothing follows ends the sequence with the transport's outcome. -/
theorem writeThen_finish_done (s : State) (reg : ChipReg) (w : Word) :
    (s.writeThen reg w fun t => t.finish .done) =
      (s.afterWrite reg w).finish (if s.draw.ok then .done else .failed .transportError) := by
  rcases s.writeThen_cases reg w fun t => t.finish .done with ⟨hok, h⟩ | ⟨hlost, h⟩
  · simp [h, hok]
  · simp [h, hlost]

theorem onResponse_awaitWrite_of_error {r : Response} (h : r.status ≠ .ok) (reg : ChipReg) (s : State) :
    onResponse (.awaitWrite reg) r s = s.finish (.failed r.status) := by
  rw [onResponse, if_neg h]

theorem onResponse_awaitWrite_of_ok {r : Response} (h : r.status = .ok) (reg : ChipReg) (s : State) :
    onResponse (.awaitWrite reg) r s =
      (s.afterWrite reg r.wordOut).finish (if s.draw.ok then .done else .failed .transportError) := by
  rw [onResponse, if_pos h, writeThen_finish_done]

/-- A sequence that issues `i` and then writes the word answered: the response decides whether the bus is used, and `CFG`
stays as the command left it (R171, R179). -/
theorem write_sequence_ends {i : Instr} (hstep : step s = .next ((s.takeCall rest).ask i (.awaitWrite reg))) :
    ∃ t u r, exec i s = .next u ∧ u.response = some r ∧ Reaches 3 s t ∧ u.cfg = cfgAfter s.build s.cfg i ∧
      t.cfg = u.cfg ∧ (r.status ≠ .ok → Ended t rest (.failed r.status) ∧ t.trace = s.trace) ∧
      (r.status = .ok → Ended t rest (if s.draw.ok then .done else .failed .transportError) ∧
        t.trace = .wrote (pointerByte reg) r.wordOut.high r.wordOut.low s.draw.ok :: s.trace) := by
  have hreach : Reaches 3 s (onResponse (.awaitWrite reg) (responseTo s.build s.cfg i)
      ((s.takeCall rest).answered i (.awaitWrite reg))) := reaches_succ hstep (reaches_ask _ i rfl)
  refine ⟨_, _, _, exec_eq i s, rfl, hreach, rfl, (onResponse_keeps _ _ _).2, fun herr => ?_, fun hok => ?_⟩
  · rw [onResponse_awaitWrite_of_error herr]
    exact ⟨⟨rfl, rfl⟩, rfl⟩
  · rw [onResponse_awaitWrite_of_ok hok, State.answered_draw, State.takeCall_draw]
    exact ⟨⟨by simp, by simp⟩, by simp⟩

end

/-! ## The threshold calls (R176) -/

/-- The pointer bytes of the threshold registers (R41). -/
theorem pointerByte_threshold (reg : Threshold) : pointerByte reg.reg = if reg = .low then 0x02 else 0x03 := by
  cases reg <;> rfl

/-- R176: the profile is looked at before any bus access. -/
theorem beginCall_threshold_of_base {s : State} {c : Call} {reg : Threshold}
    (hc : (∃ v, c = Call.setThreshold reg v) ∨ c = .getThreshold reg) (hb : s.build.profile = .base) :
    beginCall c s = .next (s.finish (.failed .unsupportedOperation)) := by
  rcases hc with ⟨v, rfl⟩ | rfl
  · exact if_pos hb
  · exact if_pos hb

end Sys2Proof.Machine

namespace Sys2Proof.Proofs

open Sys2Proof.Machine Sys2Proof.Claims

/-- Settles O44: the sequence of a command and the write of its word. -/
theorem configurationUpdateSequence : Obligations.ConfigurationUpdateSequence := by
  intro s given rest hcall
  obtain ⟨t, u, r, hexec, hr, hreach, -, hcfg, herr, hok⟩ :=
    write_sequence_ends (i := .update given) (reg := .configuration) (step_of_calling hcall)
  exact ⟨t, u, r, hexec, hr, hreach, hcfg, herr, hok⟩

/-- Settles O46: the read sequence of BUSY, whose answer is whether OS decodes to `converting`. -/
theorem busySequence : Obligations.BusySequence := by
  intro s rest hcall
  have hstep := step_of_calling hcall
  refine ⟨fun w hw => ?_, lost_read_ends hcall.1 hstep⟩
  rw [← decCode_os_eq_one s.build.drTable]
  exact read_ends_with_response (res := fun r => .busy r.busy) rfl (fun _ _ => rfl) rfl hstep hw

/-- Settles O48: the read sequence of CONV. -/
theorem conversionReadSequence : Obligations.ConversionReadSequence := by
  intro s rest hcall
  have hstep := step_of_calling hcall
  refine ⟨fun w hw => ?_, lost_read_ends hcall.1 hstep⟩
  exact read_ends_with_answer (res := fun r => .reading r.raw12 r.scaledQ3) rfl (fun _ _ => rfl) rfl hstep hw

/-- Settles O49: on `base` by the check of the profile; elsewhere by the write sequence of SETTH and the read sequence of
GETTH. -/
theorem thresholdSequences : Obligations.ThresholdSequences := by
  intro s rest reg
  simp only [← pointerByte_threshold]
  refine ⟨fun c hc hcall hb => ?_, fun v hcall hb => ?_, fun hcall hb => ?_⟩
  · have hstep := (step_of_calling hcall).trans (beginCall_threshold_of_base hc hb)
    exact ⟨_, reaches_one hstep, rfl, ⟨hcall.1, rfl⟩, rfl⟩
  · have hstep := (step_of_calling hcall).trans (if_neg hb)
    obtain ⟨t, u, r, hexec, hr, hreach, hu, hcfg, herr, hok⟩ := write_sequence_ends hstep
    exact ⟨t, u, r, hexec, hr, hreach, hcfg.trans hu, herr, hok⟩
  · have hstep := (step_of_calling hcall).trans (if_neg hb)
    refine ⟨fun w hw => ?_, lost_read_ends hcall.1 hstep⟩
    exact read_ends_with_answer (res := fun r => .threshold r.thValue) rfl (fun _ _ => rfl) rfl hstep hw

/-- Settles O50: the read sequence of DECODE. -/
theorem configurationReadSequence : Obligations.ConfigurationReadSequence := by
  intro s rest hcall
  have hstep := step_of_calling hcall
  refine ⟨fun w hw => ?_, lost_read_ends hcall.1 hstep⟩
  exact read_ends_with_answer (res := fun r => .symbols r.symValid r.symOut) rfl (fun _ _ => rfl) rfl hstep hw

end Sys2Proof.Proofs

/-! # Errors: the check a command fails, the response it then gives, and which checks answer OutOfRange -/

namespace Sys2Proof.Machine

/-! ## A command by the outcome of its checks (R196, R198) -/

/-- The check a command fails; DECODE, START, BUSY and RESET have none. -/
def commandProblem (b : Build) : Instr → Option Problem
  | .encode given => encodeProblem b given
  | .update given => gate b given
  | .conv gain _ => gainProblem b gain
  | .setth reg data => thresholdProblem b reg data.toInt
  | .getth reg _ => registerProblem b reg
  | .decode _ | .start | .busy _ | .reset => none

theorem checked_of_none {p : Option Problem} (h : p = none) (r : Response) : checked p r = r := by
  rw [h]
  rfl

theorem exec_setth_of_problem {reg : ChipReg} {data : Word} {s : State} {p : Problem}
    (h : thresholdProblem s.build reg data.toInt = some p) : exec (.setth reg data) s = .next (s.raise p) := by
  rw [exec_eq, responseTo, h]
  rfl

/-- R198: a command that fails a check does nothing but raise it. -/
theorem exec_of_commandProblem {i : Instr} {s : State} {p : Problem} (h : commandProblem s.build i = some p) :
    exec i s = .next (s.raise p) := by
  cases i with
  | encode given => exact exec_encode_of_problem h
  | update given => exact exec_update_of_problem h
  | conv gain data => exact exec_conv_of_problem data h
  | setth reg data => exact exec_setth_of_problem h
  | getth reg data => exact exec_getth_of_problem h
  | decode _ | start | busy _ | reset => cases h

/-- A command that passes its checks succeeds. -/
theorem status_responseTo_of_no_problem {b : Build} {i : Instr} (cfg : Slots Sym) (h : commandProblem b i = none) :
    (responseTo b cfg i).status = .ok := by
  cases i with
  | decode _ | start | busy _ | reset => rfl
  | encode _ | update _ | conv _ _ | setth _ _ | getth _ _ =>
    exact congrArg Response.status (checked_of_none h _)

/-- A command succeeds, or raises the check it fails. -/
theorem exec_ok_or_raise (i : Instr) (s : State) :
    (responseTo s.build s.cfg i).status = .ok ∨
      ∃ p, commandProblem s.build i = some p ∧ exec i s = .next (s.raise p) := by
  cases h : commandProblem s.build i with
  | none => exact .inl (status_responseTo_of_no_problem s.cfg h)
  | some p => exact .inr ⟨p, rfl, exec_of_commandProblem h⟩

/-! ## The checks of the operands (R192, R193) -/

/-- An error of the operands alone: the profile lacks what is asked for, or a field's value is not one of its own. -/
def Problem.OfOperands (p : Problem) : Prop := p.status = .unsupportedOperation ∨ p.status = .invalidFieldValue

theorem Problem.OfOperands.status_ne_outOfRange {p : Problem} (h : p.OfOperands) : p.status ≠ .outOfRange := by
  rcases h with h | h <;> simp [h]

section
variable {b : Build} {given : Given} {p : Problem}

theorem ofOperands_of_capabilityProblem (h : capabilityProblem b given = some p) : p.OfOperands := by
  obtain ⟨f, -, rfl⟩ := Option.map_eq_some_iff.mp h
  exact .inl rfl

theorem ofOperands_of_domainProblem (h : domainProblem b given = some p) : p.OfOperands := by
  obtain ⟨f, -, rfl⟩ := Option.map_eq_some_iff.mp h
  exact .inr rfl

theorem ofOperands_of_absentProblem (h : absentProblem b given = some p) : p.OfOperands := by
  obtain ⟨f, -, rfl⟩ := Option.map_eq_some_iff.mp h
  exact .inr rfl

theorem ofOperands_of_gate (h : gate b given = some p) : p.OfOperands := by
  unfold gate at h
  split at h
  case h_1 q hq => exact ofOperands_of_capabilityProblem (hq.trans h)
  case h_2 => exact ofOperands_of_domainProblem h

theorem ofOperands_of_encodeProblem (h : encodeProblem b given = some p) : p.OfOperands := by
  unfold encodeProblem at h
  split at h
  case h_1 q hq => exact ofOperands_of_gate (hq.trans h)
  case h_2 => exact ofOperands_of_absentProblem h

theorem ofOperands_of_gainProblem {gain : Option Sym} (h : gainProblem b gain = some p) : p.OfOperands := by
  cases gain with
  | none => cases h
  | some sym =>
    simp only [gainProblem] at h
    split at h
    · cases h
      exact .inl rfl
    · split at h
      · cases h
        exact .inr rfl
      · cases h

theorem ofOperands_of_registerProblem {reg : ChipReg} (h : registerProblem b reg = some p) : p.OfOperands := by
  unfold registerProblem at h
  split at h
  · cases h
    exact .inl rfl
  · split at h
    · cases h
      exact .inl rfl
    · cases h

end

/-! ## The check of the range (R194) -/

/-- SETTH and GETTH pass their first two checks on a threshold register of a profile that has thresholds. -/
theorem registerProblem_eq_none_iff {b : Build} {reg : ChipReg} :
    registerProblem b reg = none ↔ b.profile ≠ .base ∧ (reg = .lowThreshold ∨ reg = .highThreshold) := by
  refine ⟨fun h => ?_, fun ⟨hb, hreg⟩ => registerProblem_of_threshold hb hreg⟩
  have hb : b.profile ≠ .base := fun hb => nomatch (registerProblem_of_base reg hb).symm.trans h
  refine ⟨hb, ?_⟩
  cases reg with
  | lowThreshold => exact .inl rfl
  | highThreshold => exact .inr rfl
  | conversion => exact nomatch (registerProblem_of_no_threshold (.inl rfl)).symm.trans h
  | configuration => exact nomatch (registerProblem_of_no_threshold (.inr rfl)).symm.trans h

theorem thresholdProblem_cases {b : Build} {reg : ChipReg} {t : Int} {p : Problem}
    (h : thresholdProblem b reg t = some p) :
    p.OfOperands ∨ registerProblem b reg = none ∧ (t < -2048 ∨ 2047 < t) ∧ p = ⟨.outOfRange, 0xF⟩ := by
  unfold thresholdProblem at h
  split at h
  case h_1 q hq => exact .inl (ofOperands_of_registerProblem (hq.trans h))
  case h_2 hreg =>
    split at h
    case isTrue ht =>
      cases h
      exact .inr ⟨hreg, ht, rfl⟩
    case isFalse => cases h

/-- Beyond its operands, a command has one check to fail: the range of SETTH's value. -/
theorem commandProblem_cases {b : Build} {i : Instr} {p : Problem} (h : commandProblem b i = some p) :
    p.OfOperands ∨ ∃ reg data, i = .setth reg data ∧ registerProblem b reg = none ∧
      (data.toInt < -2048 ∨ 2047 < data.toInt) ∧ p = ⟨.outOfRange, 0xF⟩ := by
  cases i with
  | encode given => exact .inl (ofOperands_of_encodeProblem h)
  | update given => exact .inl (ofOperands_of_gate h)
  | conv gain data => exact .inl (ofOperands_of_gainProblem h)
  | setth reg data => exact (thresholdProblem_cases h).imp_right fun hrange => ⟨reg, data, rfl, hrange⟩
  | getth reg data => exact .inl (ofOperands_of_registerProblem h)
  | decode _ | start | busy _ | reset => cases h

/-- The inversion lemma of an OutOfRange response. -/
theorem setth_of_status_outOfRange {i : Instr} {s t : State} {r : Response} (hexec : exec i s = .next t)
    (hr : t.response = some r) (hstatus : r.status = .outOfRange) :
    r.errField = 0xF ∧ ∃ reg data, i = .setth reg data ∧ registerProblem s.build reg = none ∧
      (data.toInt < -2048 ∨ 2047 < data.toInt) := by
  rcases exec_ok_or_raise i s with hok | ⟨p, hp, hraise⟩
  · rw [exec_eq] at hexec
    cases hexec
    cases hr
    exact nomatch hok.symm.trans hstatus
  · rw [hraise] at hexec
    cases hexec
    cases hr
    rcases commandProblem_cases hp with hop | ⟨reg, data, hi, hreg, hrange, rfl⟩
    · exact absurd hstatus hop.status_ne_outOfRange
    · exact ⟨rfl, reg, data, hi, hreg, hrange⟩

end Sys2Proof.Machine

namespace Sys2Proof.Proofs

open Sys2Proof.Machine

/-- Settles O13: a command that does not succeed raises the check it fails, which sets the response only. -/
theorem errorsWriteNoState : Obligations.ErrorsWriteNoState := by
  intro i s
  rcases exec_ok_or_raise i s with hok | ⟨p, -, hraise⟩
  · exact ⟨_, _, exec_eq i s, rfl, fun herr => absurd hok herr⟩
  · exact ⟨_, _, hraise, rfl, fun _ => rfl⟩

/-- Settles O14: of all checks only the range of SETTH answers OutOfRange, and it comes after those of the register. -/
theorem outOfRangeOnlyFromSetth : Obligations.OutOfRangeOnlyFromSetth := by
  intro i s t r hexec hr
  refine ⟨⟨fun hstatus => ?_, ?_⟩, fun hstatus => (setth_of_status_outOfRange hexec hr hstatus).1⟩
  · obtain ⟨-, reg, data, hi, hreg, hrange⟩ := setth_of_status_outOfRange hexec hr hstatus
    obtain ⟨hb, hthreshold⟩ := registerProblem_eq_none_iff.mp hreg
    exact ⟨reg, data, hi, hb, hthreshold, hrange⟩
  · rintro ⟨reg, data, rfl, hb, hthreshold, hrange⟩
    rw [exec_setth_of_out_of_range (registerProblem_eq_none_iff.mpr ⟨hb, hthreshold⟩) hrange] at hexec
    cases hexec
    cases hr
    rfl

end Sys2Proof.Proofs

/-! # The words UPDATE and START answer while `CFG` holds its defaults (R213) -/

namespace Sys2Proof.Machine

/-- The operands of an UPDATE that gives no field. -/
def nothingGiven : Given := ⟨none, none, none, none, none, none, none, none, none⟩

theorem get_nothingGiven (f : Field) : nothingGiven.get f = none := by cases f <;> rfl

theorem gate_nothingGiven (b : Build) : gate b nothingGiven = none :=
  gate_of_passes fun f => ⟨fun hlacking => hlacking.1 (get_nothingGiven f),
    fun ⟨_, hgiven, _⟩ => nomatch (get_nothingGiven f).symm.trans hgiven⟩

theorem get_mergeSymbols_nothingGiven (cfg : Slots Sym) (f : Field) :
    (mergeSymbols cfg nothingGiven).get f = if f = .os then 0 else cfg.get f := by
  rw [mergeSymbols, Slots.get_ofFn, get_nothingGiven, Option.getD_none]

theorem commit_cfg_self (s : State) : s.commit s.cfg = s := by
  have hcfg : (s.commit s.cfg).cfg = s.cfg := Slots.ext_get fun f => by
    rw [State.commit_cfg, Slots.get_ofFn, ite_self]
  calc s.commit s.cfg = { s with cfg := (s.commit s.cfg).cfg } := rfl
    _ = s := by rw [hcfg]

/-- START's word is that of an UPDATE of nothing with bit 15 set. -/
theorem encWord_startSymbols (b : Build) (cfg : Slots Sym) :
    encWord b (startSymbols cfg) = 0x8000 ||| encWord b (mergeSymbols cfg nothingGiven) := by
  have hstart : codeInPlace b (startSymbols cfg) .os = 0x8000 := by
    have hcode : encCode b.drTable .os 2 = 1 := encCode_of_legal rfl
    rw [codeInPlace, if_pos (has_os _), get_startSymbols, if_pos rfl, hcode]
    decide
  have hidle : codeInPlace b (mergeSymbols cfg nothingGiven) .os = 0 := by
    have hcode : encCode b.drTable .os 0 = 0 := encCode_of_legal rfl
    rw [codeInPlace, if_pos (has_os _), get_mergeSymbols_nothingGiven, if_pos rfl, hcode]
    decide
  have hrest (f : Field) (hf : f ≠ .os) :
      codeInPlace b (startSymbols cfg) f = codeInPlace b (mergeSymbols cfg nothingGiven) f := by
    rw [codeInPlace, codeInPlace, get_startSymbols, get_mergeSymbols_nothingGiven, if_neg hf, if_neg hf]
  simp [encWord, Field.all, hstart, hidle, hrest]

/-- Each default has the same code under both data-rate tables, so the profile alone decides the word. -/
theorem encWord_defaults (b : Build) : encWord b defaults = if b.profile = .base then 0x0180 else 0x0583 := by
  have hword : ∀ p t, encWord { profile := p, drTable := t } defaults = if p = .base then 0x0180 else 0x0583 := by
    intro p t
    cases p <;> cases t <;> decide
  exact hword b.profile b.drTable

end Sys2Proof.Machine

namespace Sys2Proof.Proofs

open Sys2Proof.Machine

/-- Settles O33: both commands encode the defaults, START with bit 15 set, and an UPDATE of nothing commits nothing. -/
theorem encodedDefaults : Obligations.EncodedDefaults := by
  intro s hcfg
  have hmerge : mergeSymbols s.cfg nothingGiven = s.cfg := by
    rw [hcfg]
    rfl
  have hstart : encWord s.build (startSymbols s.cfg) = if s.build.profile = .base then 0x8180 else 0x8583 := by
    rw [encWord_startSymbols, hmerge, hcfg, encWord_defaults]
    split <;> rfl
  constructor
  · change exec (.update nothingGiven) s = _
    rw [exec_update_of_ok (gate_nothingGiven s.build), hmerge, commit_cfg_self, hcfg, encWord_defaults]
  · rw [exec_eq, responseTo, hstart]
    rfl

end Sys2Proof.Proofs

/-! # The commands: what one leaves in `CFG`, which slots it reads, and that it always answers -/

namespace Sys2Proof.Machine

open Sys2Proof.Claims

/-! ## The slots of `CFG` after a command (R25, R26, R29, R109) -/

/-- GATE raises nothing only where every field given is the profile's and legal (R103). -/
theorem gatePasses_of_gate {b : Build} {given : Given} (h : gate b given = none) : GatePasses b given := by
  unfold gate at h
  split at h
  case h_1 => cases h
  case h_2 hcap =>
    refine fun f => ⟨?_, ?_⟩
    · rw [← lacking_iff, Field.find?_all_none (Option.map_eq_none_iff.mp hcap) f]
      exact Bool.false_ne_true
    · rw [← illegal_iff, Field.find?_all_none (Option.map_eq_none_iff.mp h) f]
      exact Bool.false_ne_true

theorem get_mergeSymbols {cfg : Slots Sym} {given : Given} {f : Field} (hf : f ≠ .os) :
    (mergeSymbols cfg given).get f = (given.get f).getD (cfg.get f) := by
  rw [mergeSymbols, Slots.get_ofFn, if_neg hf]

/-- The inversion lemma of a slot of `CFG`: a command keeps it, or is RESET, or is an UPDATE that gives it. -/
theorem get_cfgAfter_cases (b : Build) (cfg : Slots Sym) (i : Instr) (f : Field) :
    (cfgAfter b cfg i).get f = cfg.get f ∨
      (i = .reset ∧ (cfgAfter b cfg i).get f = defaults.get f) ∨
      ∃ given sym, i = .update given ∧ given.get f = some sym ∧ f ≠ .os ∧ has b.profile f = true ∧
        legal b.drTable f sym = true ∧ (cfgAfter b cfg i).get f = sym := by
  cases i
  case reset => exact .inr (.inl ⟨rfl, rfl⟩)
  case update given =>
    by_cases hgate : gate b given = none
    · by_cases hf : f ≠ .os ∧ has b.profile f = true
      · obtain ⟨hos, hhas⟩ := hf
        have hget : (cfgAfter b cfg (.update given)).get f = (given.get f).getD (cfg.get f) := by
          rw [cfgAfter, if_pos hgate, Slots.get_ofFn, if_pos ⟨hos, hhas⟩, get_mergeSymbols hos]
        cases hgiven : given.get f with
        | none => exact .inl (by rw [hget, hgiven, Option.getD_none])
        | some sym =>
          have hlegal : legal b.drTable f sym = true :=
            Bool.eq_true_of_not_eq_false fun hill => (gatePasses_of_gate hgate f).2 ⟨sym, hgiven, hill⟩
          exact .inr (.inr ⟨given, sym, rfl, hgiven, hos, hhas, hlegal, by rw [hget, hgiven, Option.getD_some]⟩)
      · exact .inl (by rw [cfgAfter, if_pos hgate, Slots.get_ofFn, if_neg hf])
    · exact .inl (by rw [cfgAfter, if_neg hgate])
  all_goals exact .inl rfl

theorem slotOk_defaults (b : Build) (f : Field) : slotOk b f (defaults.get f) :=
  ⟨fun _ => legal_defaults b.drTable f, fun hf => hf ▸ rfl, fun _ => rfl⟩

/-- R24-R26: no command leaves the legal configurations. -/
theorem cfgOk_cfgAfter {b : Build} {cfg : Slots Sym} (i : Instr) (h : cfgOk b cfg) : cfgOk b (cfgAfter b cfg i) := by
  intro f
  rcases get_cfgAfter_cases b cfg i f with hsame | ⟨-, hdefault⟩ | ⟨_, sym, -, -, hos, hhas, hlegal, hsym⟩
  · rw [hsame]
    exact h f
  · rw [hdefault]
    exact slotOk_defaults b f
  · rw [hsym]
    exact ⟨fun _ => hlegal, fun hf => absurd hf hos, fun hlacks => nomatch hhas.symm.trans hlacks⟩

/-! ## Which slots a command reads (R25, R26) -/

/-- Two configurations that agree on the slots a command may read: those of the profile's fields, OS apart. -/
def AgreeOnSlots (b : Build) (c d : Slots Sym) : Prop := ∀ f, f ≠ .os → has b.profile f = true → c.get f = d.get f

theorem encWord_congr {b : Build} {m m' : Slots Sym} (h : ∀ f, has b.profile f = true → m.get f = m'.get f) :
    encWord b m = encWord b m' := by
  have hplace : codeInPlace b m = codeInPlace b m' := by
    funext f
    unfold codeInPlace
    split
    case isTrue hf => rw [h f hf]
    case isFalse => rfl
  rw [encWord, encWord, hplace]

section
variable {b : Build} {c d : Slots Sym}

theorem AgreeOnSlots.mergeSymbols (h : AgreeOnSlots b c d) (given : Given) (f : Field) (hf : has b.profile f = true) :
    (mergeSymbols c given).get f = (mergeSymbols d given).get f := by
  by_cases hos : f = .os
  · rw [Machine.mergeSymbols, Machine.mergeSymbols, Slots.get_ofFn, Slots.get_ofFn, if_pos hos, if_pos hos]
  · rw [get_mergeSymbols hos, get_mergeSymbols hos, h f hos hf]

theorem AgreeOnSlots.startSymbols (h : AgreeOnSlots b c d) (f : Field) (hf : has b.profile f = true) :
    (startSymbols c).get f = (startSymbols d).get f := by
  rw [get_startSymbols, get_startSymbols]
  split
  case isTrue => rfl
  case isFalse hos => exact h f hos hf

theorem AgreeOnSlots.convMult (h : AgreeOnSlots b c d) (gain : Option Sym) : convMult b c gain = convMult b d gain := by
  unfold Machine.convMult
  split
  case isTrue hpga =>
    have hgain : c.pga = d.pga := h .pga nofun hpga
    rw [hgain]
  case isFalse => rfl

theorem AgreeOnSlots.responseTo (h : AgreeOnSlots b c d) (i : Instr) : responseTo b c i = responseTo b d i := by
  cases i with
  | update given => rw [Machine.responseTo, Machine.responseTo, encWord_congr (h.mergeSymbols given)]
  | start => rw [Machine.responseTo, Machine.responseTo, encWord_congr h.startSymbols]
  | conv gain data => rw [Machine.responseTo, Machine.responseTo, h.convMult gain]
  | encode _ | decode _ | busy _ | reset | setth _ _ | getth _ _ => rfl

theorem AgreeOnSlots.cfgAfter (h : AgreeOnSlots b c d) (i : Instr) :
    AgreeOnSlots b (cfgAfter b c i) (cfgAfter b d i) := by
  intro f hos hf
  cases i with
  | update given =>
    by_cases hgate : gate b given = none
    · rw [Machine.cfgAfter, Machine.cfgAfter, if_pos hgate, if_pos hgate, Slots.get_ofFn, Slots.get_ofFn,
        if_pos ⟨hos, hf⟩, if_pos ⟨hos, hf⟩, h.mergeSymbols given f hf]
    · rw [Machine.cfgAfter, Machine.cfgAfter, if_neg hgate, if_neg hgate, h f hos hf]
  | reset => rfl
  | encode _ | decode _ | start | busy _ | conv _ _ | setth _ _ | getth _ _ => exact h f hos hf

end

/-! ## The responses (R191, R197) -/

theorem errField_responseTo_of_no_problem {b : Build} {i : Instr} (cfg : Slots Sym) (h : commandProblem b i = none) :
    (responseTo b cfg i).errField = 0xF := by
  cases i with
  | decode _ | start | busy _ | reset => rfl
  | encode _ | update _ | conv _ _ | setth _ _ | getth _ _ =>
    exact congrArg Response.errField (checked_of_none h _)

/-- The codec block has errors of its own, and none of them is the transport's (R195). -/
theorem status_of_commandProblem {b : Build} {i : Instr} {p : Problem} (h : commandProblem b i = some p) :
    p.status ≠ .ok ∧ p.status ≠ .transportError := by
  rcases commandProblem_cases h with (hstatus | hstatus) | ⟨_, _, -, -, -, rfl⟩
  · simp [hstatus]
  · simp [hstatus]
  · exact ⟨nofun, nofun⟩

/-- The general call is RESET's alone to ask for (R109). -/
theorem gcReq_responseTo_of_ne_reset {b : Build} {cfg : Slots Sym} {i : Instr} (h : i ≠ .reset) :
    (responseTo b cfg i).gcReq = false := by
  have hchecked (p : Option Problem) {r : Response} (hr : r.gcReq = false) : (checked p r).gcReq = false := by
    cases p
    · exact hr
    · rfl
  cases i with
  | encode _ | update _ | conv _ _ | setth _ _ | getth _ _ => exact hchecked _ rfl
  | decode _ | start | busy _ => rfl
  | reset => exact absurd rfl h

end Sys2Proof.Machine

/-! # The host's moves: what each can do, and when it waits -/

namespace Sys2Proof.Machine

/-! ## One move of the host (R50, R170, R181) -/

/-- What a move of the host does to the calls and the events, once its call is taken up, and that it waits for a
response only where it has just issued a command. -/
structure State.MovesTo (s t : State) : Prop where
  calls : t.session.calls = s.session.calls
  trace : t.trace = s.trace ∨ ∃ e, t.trace = e :: s.trace
  asked : t.session.phase.awaits = true → t.port ≠ []

/-- How a sequence goes on with an operation just made: it ends, or issues a command, or goes to a phase that waits for
none. -/
structure State.GoesOnTo (s t : State) : Prop where
  calls : t.session.calls = s.session.calls
  trace : t.trace = s.trace
  asked : t.session.phase.awaits = true → t.port ≠ []

section
variable (s : State)

theorem State.goesOnTo_askWord (w : Command) (p : Phase) : s.GoesOnTo (s.askWord w p) :=
  ⟨rfl, rfl, fun _ => List.cons_ne_nil _ _⟩

theorem State.goesOnTo_finish (r : CallResult) : s.GoesOnTo (s.finish r) := ⟨rfl, rfl, nofun⟩

theorem State.goesOnTo_goto {p : Phase} (hp : p.awaits = false) : s.GoesOnTo (s.goto p) :=
  ⟨rfl, rfl, fun h => nomatch hp.symm.trans h⟩

variable {s} {t u : State}

theorem State.GoesOnTo.movesTo (h : s.GoesOnTo t) : s.MovesTo t := ⟨h.calls, .inl h.trace, h.asked⟩

/-- One event, and then the sequence goes on. -/
theorem State.GoesOnTo.movesTo_of_event (h : u.GoesOnTo t) (hsession : u.session = s.session)
    (htrace : ∃ e, u.trace = e :: s.trace) : s.MovesTo t :=
  ⟨h.calls.trans (congrArg Session.calls hsession), .inr (h.trace ▸ htrace), h.asked⟩

theorem State.readThen_movesTo {reg : ChipReg} {k : Word → State → State} (hk : ∀ w u, State.GoesOnTo u (k w u)) :
    s.MovesTo (s.readThen reg k) := by
  rcases s.readThen_cases reg k with ⟨w, -, h⟩ | ⟨-, h⟩
  · rw [h]
    exact (hk w _).movesTo_of_event (by simp) ⟨_, s.afterRead_trace reg⟩
  · rw [h]
    exact (State.goesOnTo_finish _ _).movesTo_of_event (by simp) ⟨_, s.afterRead_trace reg⟩

theorem State.writeThen_movesTo {reg : ChipReg} {w : Word} {k : State → State} (hk : ∀ u, State.GoesOnTo u (k u)) :
    s.MovesTo (s.writeThen reg w k) := by
  rcases s.writeThen_cases reg w k with ⟨-, h⟩ | ⟨-, h⟩
  · rw [h]
    exact (hk _).movesTo_of_event (by simp) ⟨_, s.afterWrite_trace reg w⟩
  · rw [h]
    exact (State.goesOnTo_finish _ _).movesTo_of_event (by simp) ⟨_, s.afterWrite_trace reg w⟩

theorem State.callThenFinish_movesTo (s : State) : s.MovesTo s.callThenFinish :=
  (State.goesOnTo_finish _ _).movesTo_of_event (by simp) ⟨_, s.afterGeneralCall_trace⟩

end

theorem beginCall_movesTo {c : Call} {s t : State} (h : beginCall c s = .next t) : s.MovesTo t := by
  rcases beginCall_cases h with
    ⟨w, p, rfl⟩ | ⟨r, rfl⟩ | ⟨reg, i, p, rfl⟩ | ⟨reg, rfl⟩ | ⟨reg, w, rfl⟩ | rfl
  · exact (s.goesOnTo_askWord w p).movesTo
  · exact (s.goesOnTo_finish r).movesTo
  · exact State.readThen_movesTo fun w u => u.goesOnTo_askWord _ p
  · exact State.readThen_movesTo fun w u => u.goesOnTo_finish _
  · exact State.writeThen_movesTo fun u => u.goesOnTo_finish _
  · exact s.callThenFinish_movesTo

theorem stillBusy_movesTo (polls : Nat) (deadline : Option Nat) (s : State) :
    s.MovesTo (stillBusy polls deadline s) := by
  unfold stillBusy
  split
  · exact (s.goesOnTo_finish _).movesTo
  · split
    · exact (s.goesOnTo_finish _).movesTo
    · exact (State.goesOnTo_goto _ rfl).movesTo_of_event rfl ⟨_, rfl⟩

theorem onResponse_movesTo {p : Phase} (hp : p.awaits = true) (r : Response) (s : State) :
    s.MovesTo (onResponse p r s) := by
  cases p
  case idle | poll | shotRead => cases hp
  case awaitWrite reg =>
    simp only [onResponse]
    split
    · exact State.writeThen_movesTo fun u => u.goesOnTo_finish _
    · exact (s.goesOnTo_finish _).movesTo
  case awaitReset | awaitCommand =>
    simp only [onResponse]
    split
    · exact s.callThenFinish_movesTo
    · exact (s.goesOnTo_finish _).movesTo
  case awaitShotStart deadline => exact State.writeThen_movesTo fun u => u.goesOnTo_goto rfl
  case awaitPoll polls deadline =>
    simp only [onResponse]
    split
    · exact stillBusy_movesTo polls deadline s
    · exact (s.goesOnTo_goto rfl).movesTo
  all_goals exact (s.goesOnTo_finish _).movesTo

/-- A step of the host moves on, after taking up the next call where it was idle. -/
theorem sessionStep_movesTo {s t : State} (h : sessionStep s = .next t) :
    ∃ rest, (rest = s.session.calls ∨ s.session.phase = .idle ∧ ∃ c, s.session.calls = c :: rest) ∧
      (s.takeCall rest).MovesTo t := by
  rcases sessionStep_cases h with
    ⟨hp, -, rfl⟩ | ⟨c, rest, hp, hcalls, hc⟩ | ⟨n, d, -, rfl⟩ | ⟨-, rfl⟩ | ⟨r, hp, -, rfl⟩
  · exact ⟨_, .inl rfl, rfl, .inl rfl, fun hawaits => by rw [hp] at hawaits; cases hawaits⟩
  · exact ⟨rest, .inr ⟨hp, c, hcalls⟩, beginCall_movesTo hc⟩
  · exact ⟨_, .inl rfl, State.readThen_movesTo fun w u => u.goesOnTo_askWord _ _⟩
  · exact ⟨_, .inl rfl, State.readThen_movesTo fun w u => u.goesOnTo_askWord _ _⟩
  · exact ⟨_, .inl rfl, onResponse_movesTo hp r s⟩

/-- The inversion lemma of a step that answers a next state: a move of the host, or a command taken and run. -/
theorem step_next_cases {s t : State} (h : step s = .next t) :
    (s.port = [] ∧ sessionStep s = .next t) ∨
      ∃ w rest i, s.port = w :: rest ∧ decode w = .instr i ∧
        t = { s with
          port := rest, cfg := cfgAfter s.build s.cfg i, response := some (responseTo s.build s.cfg i) } := by
  rcases step_cases s with ⟨hport, hs⟩ | ⟨w, rest, hport, ⟨i, hdec, hs⟩ | ⟨why, -, hs⟩⟩
  · exact .inl ⟨hport, hs ▸ h⟩
  · rw [hs, exec_eq] at h
    cases h
    exact .inr ⟨w, rest, i, hport, hdec, rfl⟩
  · rw [hs] at h
    cases h

/-- The host faults only where it waits for a response that is not there. -/
theorem sessionStep_fault {s : State} {e : Fault} (h : sessionStep s = .fault e) :
    s.session.phase.awaits = true ∧ s.response = none := by
  unfold sessionStep at h
  split at h
  · split at h
    · cases h
    · exact absurd h (beginCall_no_fault _ _ e)
  · cases h
  · cases h
  all_goals
    rename_i hp
    refine ⟨by rw [hp]; rfl, ?_⟩
    unfold awaitResponse at h
    split at h
    · cases h
    · assumption

end Sys2Proof.Machine

namespace Sys2Proof.Proofs

open Sys2Proof.Machine

/-- Settles O5: a command keeps `CFG` legal and leaves a response; the host keeps `CFG`, and waits only where it has
just issued a command. -/
theorem everyStepKeepsInv : Obligations.EveryStepKeepsInv := by
  rintro s t ⟨hwf, hcfg, -⟩ hstep
  rcases step_next_cases hstep with ⟨-, hhost⟩ | ⟨w, rest, i, -, -, rfl⟩
  · obtain ⟨hbuild, hsame⟩ := sessionStep_keeps hhost
    obtain ⟨_, -, hmove⟩ := sessionStep_movesTo hhost
    rw [State.Inv, hbuild, hsame]
    exact ⟨hwf, hcfg, fun hawaits => .inl (hmove.asked hawaits)⟩
  · exact ⟨hwf, cfgOk_cfgAfter i hcfg, fun _ => .inr nofun⟩

/-- Settles O37: this is `decode_encode`. -/
theorem decodeInvertsEncode : Obligations.DecodeInvertsEncode := decode_encode

/-- Settles O6: a command never faults, and the handshake rules out the one fault of the host. -/
theorem noStepFaults : Obligations.NoStepFaults := by
  rintro s ⟨-, -, hhost⟩ e hfault
  rcases step_cases s with ⟨hport, hs⟩ | ⟨w, rest, -, ⟨i, -, hs⟩ | ⟨why, -, hs⟩⟩
  · obtain ⟨hawaits, hresponse⟩ := sessionStep_fault (hs ▸ hfault)
    rcases hhost hawaits with h | h
    · exact h hport
    · exact h hresponse
  · rw [hs, exec_eq] at hfault
    cases hfault
  · rw [hs] at hfault
    cases hfault

/-- Settles O8: RESET restores the defaults and UPDATE commits no hidden slot; the encoder and the scaler look at the
profile's slots only. -/
theorem hiddenSlotsHoldAndAreNotRead : Obligations.HiddenSlotsHoldAndAreNotRead := by
  refine ⟨fun _ _ => rfl, fun s t f hstep hhidden hdefault => ?_, fun i s c hagree => ?_⟩
  · rcases step_next_cases hstep with ⟨-, hhost⟩ | ⟨w, rest, i, -, -, rfl⟩
    · rw [(sessionStep_keeps hhost).2, hdefault]
    · rcases get_cfgAfter_cases s.build s.cfg i f with hsame | ⟨-, hreset⟩ | ⟨_, _, -, -, hos, hhas, -, -⟩
      · exact hsame.trans hdefault
      · exact hreset
      · rcases hhidden with hf | hlacks
        · exact absurd hf hos
        · exact nomatch hhas.symm.trans hlacks
  · have hslots : AgreeOnSlots s.build c s.cfg := hagree
    refine ⟨_, _, _, exec_eq i s, ?_, hslots.cfgAfter i⟩
    rw [exec_eq, hslots.responseTo i]

/-- Settles O9: neither a command nor the host writes the parameters. -/
theorem buildNeverChanges : Obligations.BuildNeverChanges := by
  intro s t hstep
  rcases step_next_cases hstep with ⟨-, hhost⟩ | ⟨w, rest, i, -, -, rfl⟩
  · exact (sessionStep_keeps hhost).1
  · rfl

/-- Settles O10: by the inversion lemma of `exec`, which names the build and `CFG` only. -/
theorem commandsDependOnBuildAndCfg : Obligations.CommandsDependOnBuildAndCfg := by
  intro i s s' hbuild hcfg
  exact ⟨_, _, exec_eq i s, by rw [exec_eq, hbuild, hcfg]⟩

/-- Settles O11: by the inversion lemmas of `exec` and of a slot. -/
theorem commandFrame : Obligations.CommandFrame := by
  intro i s t hexec
  rw [exec_eq] at hexec
  cases hexec
  refine ⟨rfl, rfl, rfl, rfl, rfl, rfl, rfl, fun f hne => ?_⟩
  rcases get_cfgAfter_cases s.build s.cfg i f with hsame | ⟨hreset, -⟩ | ⟨given, sym, hi, hgiven, hos, hhas, -, -⟩
  · exact absurd hsame hne
  · exact .inl hreset
  · exact .inr ⟨given, hi, by simp [hgiven], hos, hhas⟩

/-- Settles O12: a command passes its checks and succeeds, or raises one of the codec block's errors. -/
theorem everyCommandAnswers : Obligations.EveryCommandAnswers := by
  intro i s
  cases h : commandProblem s.build i with
  | none =>
    refine ⟨_, _, exec_eq i s, rfl, ?_, fun _ => errField_responseTo_of_no_problem s.cfg h⟩
    rw [status_responseTo_of_no_problem s.cfg h]
    exact nofun
  | some p =>
    obtain ⟨hok, htransport⟩ := status_of_commandProblem h
    exact ⟨_, _, exec_of_commandProblem h, rfl, htransport, fun hstatus => absurd hstatus hok⟩

/-- Settles O43: a step of the host keeps the parameters and `CFG`, and moves on with one event at most. -/
theorem hostStepFrame : Obligations.HostStepFrame := by
  intro s t hport hstep
  rw [step_of_port_nil hport] at hstep
  obtain ⟨hbuild, hcfg⟩ := sessionStep_keeps hstep
  obtain ⟨_, -, hmove⟩ := sessionStep_movesTo hstep
  exact ⟨hbuild, hcfg, hmove.trace⟩

/-- Settles O3: by definition. -/
theorem powerOnIsSilent : Obligations.PowerOnIsSilent := ⟨fun _ => ⟨rfl, rfl, rfl⟩, rfl⟩

/-- Settles O4: every default is legal, and no sequence is running. -/
theorem invAtPowerOn : Obligations.InvAtPowerOn := fun b hwf => ⟨hwf, slotOk_defaults b, nofun⟩

end Sys2Proof.Proofs

/-! # The command word: which words decode, and what re-encoding a decoded word keeps of it -/

namespace Sys2Proof

open Sys2Proof.Claims

/-! ## Which words decode (R64-R66) -/

theorem opField_toNat (w : Command) : (opField w).toNat = w.toNat % 16 := by
  simp [opField, BitVec.extractLsb'_toNat]

/-- R65: an operation beyond the nine is reserved. -/
theorem decodeOp_of_reservedOp {w : Command} (h : opField w = 0 ∨ 0xA ≤ (opField w).toNat) :
    decodeOp w = .refused (.reservedOp (opField w)) := by
  have hout : (opField w).toNat = 0 ∨ 0xA ≤ (opField w).toNat := h.imp_left (congrArg BitVec.toNat)
  unfold decodeOp
  split
  case h_10 => rfl
  all_goals omega

theorem decode_of_reservedOp {w : Command} (h : opField w = 0 ∨ 0xA ≤ (opField w).toNat) :
    decode w = .refused (.reservedOp (opField w)) := by
  rw [decode, decodeOp_of_reservedOp h]

theorem decodeOp_eq_instr_iff (w : Command) :
    (∃ i, decodeOp w = .instr i) ↔ 1 ≤ (opField w).toNat ∧ (opField w).toNat ≤ 9 := by
  refine ⟨fun ⟨i, hi⟩ => ?_, fun ⟨h1, h9⟩ => decodeOp_assigned h1 h9⟩
  by_contra hout
  have hreserved : opField w = 0 ∨ 0xA ≤ (opField w).toNat := by
    rcases Nat.eq_zero_or_pos (opField w).toNat with h0 | hpos
    · exact .inl (BitVec.eq_of_toNat_eq h0)
    · exact .inr (by omega)
  exact nomatch (decodeOp_of_reservedOp hreserved).symm.trans hi

theorem decode_eq_instr_iff {w : Command} {i : Instr} :
    decode w = .instr i ↔ decodeOp w = .instr i ∧ w &&& reservedMask = 0 := by
  refine ⟨fun h => ?_, fun ⟨hop, hzero⟩ => (decode_of_reserved_zero hzero).trans hop⟩
  unfold decode at h
  split at h
  case h_1 => cases h
  case h_2 j hj =>
    split at h
    case isTrue hzero => exact ⟨hj.trans h, hzero⟩
    case isFalse => cases h

/-- R60: the reserved bits. -/
theorem getLsbD_reservedMask {k : Nat} (hk : k < 64) :
    reservedMask.getLsbD k = true ↔ k = 15 ∨ 43 ≤ k ∧ k < 48 := by
  revert k
  decide

theorem reserved_zero_iff (w : Command) :
    w &&& reservedMask = 0 ↔ w.toNat / 2 ^ 15 % 2 = 0 ∧ w.toNat / 2 ^ 43 % 32 = 0 := by
  refine ⟨fun h => ⟨extractLsb'_of_reserved_zero (lo := 15) (len := 1) h (by decide),
    extractLsb'_of_reserved_zero (lo := 43) (len := 5) h (by decide)⟩, fun ⟨h15, h43⟩ => ?_⟩
  refine BitVec.eq_of_getLsbD_eq fun k hk => ?_
  have hclear (hmask : reservedMask.getLsbD k = true) : w.getLsbD k = false := by
    rcases (getLsbD_reservedMask hk).mp hmask with rfl | ⟨hlo, hhi⟩
    · rw [BitVec.getLsbD, Nat.testBit_eq_decide_div_mod_eq, h15]
      rfl
    · have hbit := Nat.testBit_mod_two_pow (w.toNat / 2 ^ 43) 5 (k - 43)
      rw [h43, Nat.zero_testBit, Nat.testBit_div_two_pow, decide_eq_true (by omega : k - 43 < 5), Bool.true_and,
        Nat.sub_add_cancel hlo] at hbit
      exact hbit.symm
  rw [BitVec.getLsbD_and]
  cases hmask : reservedMask.getLsbD k
  · simp
  · simp [hclear hmask]

/-! ## The bits of a word that its operation reads (R60-R64, R88) -/

/-- A slice of a word put back into its place is the word with every other bit cleared. -/
theorem place_extractLsb' (w : Command) (lo len : Nat) :
    place (w.extractLsb' lo len) lo = w &&& place (BitVec.allOnes len) lo := by
  refine BitVec.eq_of_getLsbD_eq fun k hk => ?_
  rw [BitVec.getLsbD_and, getLsbD_place, getLsbD_place, BitVec.getLsbD_extractLsb', BitVec.getLsbD_allOnes]
  by_cases hlo : lo ≤ k
  · simp [hk, hlo, Nat.add_sub_cancel' hlo, Bool.and_comm]
  · simp [hlo]

/-- The instruction with its operands taken from `w`. -/
def Instr.readFrom (w : Command) : Instr → Instr
  | .encode _ => .encode (givenFields w)
  | .decode _ => .decode (dataField w)
  | .update _ => .update (givenFields w)
  | .start => .start
  | .busy _ => .busy (dataField w)
  | .reset => .reset
  | .conv _ _ => .conv (givenField w .pga) (dataField w)
  | .setth _ _ => .setth (ChipReg.ofPointer (ptrField w)) (dataField w)
  | .getth _ _ => .getth (ChipReg.ofPointer (ptrField w)) (dataField w)

/-- The inversion lemma of the decoder: `op` is the instruction's, and the word gives the operands. -/
theorem readFrom_of_decodeOp {w : Command} {i : Instr} (h : decodeOp w = .instr i) :
    opField w = i.op ∧ i = i.readFrom w := by
  have hopEq {n : Nat} (ho : (opField w).toNat = n) : opField w = BitVec.ofNat 4 n := by simp [← ho]
  unfold decodeOp at h
  split at h
  case h_10 => cases h
  all_goals
    rename_i ho
    cases h
    exact ⟨hopEq ho, rfl⟩

/-- Of one field an operation that takes it reads the `present` bit, and the `sym` slot where that is set (R62). -/
def fieldMask (w : Command) (f : Field) : Command :=
  place (BitVec.allOnes 1) (6 + f.index) |||
    if presentField w f then place (BitVec.allOnes 3) (16 + 3 * f.index) else 0

theorem placeField_givenField (w : Command) (f : Field) : placeField f (givenField w f) = w &&& fieldMask w f := by
  have hslice : w.extractLsb' (6 + f.index) 1 = BitVec.ofBool (presentField w f) := by
    refine BitVec.eq_of_getLsbD_eq fun k hk => ?_
    obtain rfl : k = 0 := by omega
    simp [presentField]
  rw [fieldMask, BitVec.and_or_distrib_left, ← place_extractLsb', hslice]
  cases hpresent : presentField w f with
  | false => simp [givenField, hpresent, placeField, place]
  | true =>
    rw [if_pos rfl, ← place_extractLsb', givenField, if_pos hpresent]
    rfl

theorem placeGiven_givenFields (w : Command) :
    placeGiven (givenFields w) = w &&& Field.all.foldr (fun f m => fieldMask w f ||| m) 0 := by
  have hlist (l : List Field) : l.foldr (fun f v => placeField f ((givenFields w).get f) ||| v) 0 =
      w &&& l.foldr (fun f m => fieldMask w f ||| m) 0 := by
    induction l with
    | nil => exact BitVec.and_zero.symm
    | cons f l ih =>
      rw [List.foldr_cons, List.foldr_cons, BitVec.and_or_distrib_left, ih, givenFields, Slots.get_ofFn,
        placeField_givenField]
  exact hlist Field.all

theorem pointer_ofPointer (p : BitVec 2) : (ChipReg.ofPointer p).pointer = p := by
  revert p
  decide

theorem place_dataField (w : Command) : place (dataField w) 48 = w &&& place (BitVec.allOnes 16) 48 :=
  place_extractLsb' w _ _

/-- SETTH and GETTH read the pointer and the data word. -/
theorem operands_threshold (w : Command) :
    place (ChipReg.ofPointer (ptrField w)).pointer 4 ||| place (dataField w) 48 =
      w &&& (place (BitVec.allOnes 2) 4 ||| place (BitVec.allOnes 16) 48) := by
  have hptr : place (ptrField w) 4 = w &&& place (BitVec.allOnes 2) 4 := place_extractLsb' w _ _
  rw [pointer_ofPointer, hptr, place_dataField, BitVec.and_or_distrib_left]

/-- The bits of `op`, and of the operands in `m`. -/
theorem encode_eq_and {w m : Command} {i : Instr} (hop : opField w = i.op) (hoperands : i.operands = w &&& m) :
    encode i = w &&& (0xF ||| m) := by
  have hplace : place (opField w) 0 = w &&& 0xF := place_extractLsb' w _ _
  rw [encode, hoperands, ← hop, hplace, BitVec.and_or_distrib_left]

/-- Of a union of two parts for each field, one part can be put in after the other. -/
theorem or_foldr_or (p q : Field → Command) (c : Command) (l : List Field) :
    c ||| l.foldr (fun f m => p f ||| q f ||| m) 0 =
      l.foldr (fun f m => q f ||| m) (c ||| l.foldr (fun f m => p f ||| m) 0) := by
  induction l generalizing c with
  | nil => rfl
  | cons f l ih =>
    have hih := ih (c ||| p f)
    simp only [List.foldr_cons, ← BitVec.or_assoc] at hih ⊢
    rw [← hih]
    ac_rfl

/-- ENCODE and UPDATE read all `present` bits, and the `sym` slots of the fields given. -/
theorem readBits_given (w : Command) (given : Given) :
    (0xF ||| Field.all.foldr (fun f m => fieldMask w f ||| m) 0 : Command) = readBits w (.encode given) :=
  or_foldr_or _ _ _ _

/-- The word of an instruction whose operands `w` gives is `w` with the bits not read cleared. -/
theorem encode_of_readFrom {w : Command} {i : Instr} (hop : opField w = i.op) (hi : i = i.readFrom w) :
    encode i = w &&& readBits w i := by
  cases i with
  | encode given =>
    cases hi
    rw [← readBits_given, encode_eq_and hop (placeGiven_givenFields w)]
  | update given =>
    cases hi
    have hbits : readBits w (.update (givenFields w)) = readBits w (.encode (givenFields w)) := rfl
    rw [hbits, ← readBits_given, encode_eq_and hop (placeGiven_givenFields w)]
  | decode data =>
    cases hi
    exact encode_eq_and hop (place_dataField w)
  | busy data =>
    cases hi
    exact encode_eq_and hop (place_dataField w)
  | start => exact encode_eq_and hop BitVec.and_zero.symm
  | reset => exact encode_eq_and hop BitVec.and_zero.symm
  | conv gain data =>
    cases hi
    have hoperands : (Instr.conv (givenField w .pga) (dataField w)).operands =
        w &&& (fieldMask w .pga ||| place (BitVec.allOnes 16) 48) := by
      rw [Instr.operands, placeField_givenField, place_dataField, BitVec.and_or_distrib_left]
    rw [encode_eq_and hop hoperands, readBits, fieldMask, givenField]
    cases presentField w .pga <;> rfl
  | setth reg data =>
    cases hi
    exact encode_eq_and hop (operands_threshold w)
  | getth reg data =>
    cases hi
    exact encode_eq_and hop (operands_threshold w)

end Sys2Proof

namespace Sys2Proof.Proofs

open Sys2Proof.Machine Sys2Proof.Claims

/-- Settles O36: an assigned `op` is enough for the operands, and the decoder asks the reserved bits to be 0. -/
theorem decoderAcceptsExactly : Obligations.DecoderAcceptsExactly := by
  intro w
  rw [← opField_toNat, ← decodeOp_eq_instr_iff, ← reserved_zero_iff, ← exists_and_right]
  exact exists_congr fun _ => decode_eq_instr_iff

/-- Settles O38: the operands of a decoded instruction are slices of its word, and the encoder puts them back. -/
theorem encodeKeepsTheBitsRead : Obligations.EncodeKeepsTheBitsRead := by
  intro w i hdec
  obtain ⟨hop, hi⟩ := readFrom_of_decodeOp (decode_eq_instr_iff.mp hdec).1
  exact encode_of_readFrom hop hi

/-- Settles O34: this is `step_of_instr`. -/
theorem stepRunsDecodedCommand : Obligations.StepRunsDecodedCommand := fun _ _ _ _ => step_of_instr

/-- Settles O35: by evaluation of the decoder on each word. -/
theorem specWordsDecode : Obligations.SpecWordsDecode := by
  refine ⟨?_, ?_, ?_, ?_, ?_, ?_, ?_, ?_, ?_, ?_⟩ <;> decide

/-- Settles O40: neither decoder assigns the word an instruction. -/
theorem reservedOperations : Obligations.ReservedOperations := by
  intro s w rest hport hop
  refine ⟨step_of_refused hport (decode_of_reservedOp hop), ?_⟩
  simp only [builtStep, fetch, hport, builtCommand, decodeOp_of_reservedOp hop]
  rfl

/-- Settles O42: what the model's decoder assigns, the built block's assigns too, and the host is the same. -/
theorem builtBlockRefines : Obligations.BuiltBlockRefines := by
  intro s
  rcases step_cases s with ⟨hport, hs⟩ | ⟨w, rest, hport, ⟨i, hdec, hs⟩ | ⟨why, -, hs⟩⟩
  · have hbuilt : builtStep s = step s := by rw [hs, builtStep, fetch, hport]
    simp [hbuilt]
  · have hbuilt : builtStep s = step s :=
      (builtStep_of_instr hport (decode_eq_instr_iff.mp hdec).1).trans hs.symm
    simp [hbuilt]
  · simp [hs]

/-- Settles O16: by evaluation of each table. -/
theorem symbolTables : Obligations.SymbolTables := by
  refine ⟨fun t => ?_, rfl, rfl, rfl, rfl, fun t => ?_⟩
  · cases t <;> decide
  · cases t <;> decide

end Sys2Proof.Proofs

/-! # The bus and the chip: the transport primitives, the general call, a start write, and a single command -/

namespace Sys2Proof.Machine

open Sys2Proof.Claims

/-! ## Bytes and pointers (R41-R45) -/

/-- R43: a word goes out as its two bytes. -/
theorem high_ofBytes (b0 b1 : Byte) : (Word.ofBytes b0 b1).high = b0 := BitVec.extractLsb'_append_eq_left

theorem low_ofBytes (b0 b1 : Byte) : (Word.ofBytes b0 b1).low = b1 := BitVec.extractLsb'_append_eq_right

/-- R45: the word a read gives is `b0 << 8 | b1` of its bytes. -/
theorem word_eq_bytes (w : Word) : w.high.setWidth 16 <<< 8 ||| w.low.setWidth 16 = w := by
  refine BitVec.eq_of_getLsbD_eq fun k hk => ?_
  by_cases h8 : k < 8
  · simp [Word.high, Word.low, hk, h8]
  · simp [Word.high, Word.low, hk, h8, show k - 8 < 8 by omega, Nat.add_sub_cancel' (Nat.le_of_not_lt h8)]

theorem getLsbD_high_7 (w : Word) : w.high.getLsbD 7 = w.getLsbD 15 := by simp [Word.high]

theorem pointerRefusal_of_high {ptr : Byte} (h : 3 < ptr.toNat) (p : Profile) :
    pointerRefusal p ptr = some .noSuchPointer := if_pos h

theorem pointerRefusal_of_threshold {ptr : Byte} (h : ptr = 2 ∨ ptr = 3) :
    pointerRefusal .base ptr = some .thresholdOnBase := by
  rcases h with rfl | rfl <;> rfl

/-- R41, R42: the pointers of the registers a chip of the profile has. -/
theorem pointerRefusal_eq_none_iff {p : Profile} {ptr : Byte} :
    pointerRefusal p ptr = none ↔ ptr.toNat ≤ 1 ∨ ptr.toNat ≤ 3 ∧ p ≠ .base := by
  unfold pointerRefusal
  split
  case isTrue h => simp; omega
  case isFalse h =>
    by_cases hb : p = .base
    · simp [hb]
    · simp [hb]; omega

/-- R41: a pointer byte that is not refused is that of the register it selects. -/
theorem pointerByte_ofPointer {p : Profile} {ptr : Byte} (h : pointerRefusal p ptr = none) :
    pointerByte (ChipReg.ofPointer (ptr.setWidth 2)) = ptr := by
  have hle : ptr.toNat ≤ 3 := by
    rcases pointerRefusal_eq_none_iff.mp h with h1 | ⟨h3, -⟩
    · omega
    · exact h3
  have hall : ∀ ptr : Byte, ptr.toNat ≤ 3 → pointerByte (ChipReg.ofPointer (ptr.setWidth 2)) = ptr := by decide
  exact hall ptr hle

/-! ## The calls of the transport primitives (R44-R48) -/

theorem beginCall_writeReg {s : State} {ptr : Byte} (b0 b1 : Byte) (h : pointerRefusal s.build.profile ptr = none) :
    beginCall (.writeReg ptr [b0, b1]) s =
      .next ((s.afterWrite (ChipReg.ofPointer (ptr.setWidth 2)) (Word.ofBytes b0 b1)).finish
        (if s.draw.ok then .done else .failed .transportError)) := by
  simp only [beginCall, h, writeThen_finish_done]

theorem beginCall_readReg {s : State} {ptr : Byte} (h : pointerRefusal s.build.profile ptr = none) :
    beginCall (.readReg ptr 2) s =
      .next (s.readThen (ChipReg.ofPointer (ptr.setWidth 2)) fun w t => t.finish (.word w)) := by
  simp [beginCall, h]

/-- Both accesses of two bytes are refused for the pointer alone (log entry 16). -/
theorem beginCall_of_pointerRefusal {s : State} {c : Call} {ptr : Byte} {r : Refusal}
    (hc : c = .readReg ptr 2 ∨ ∃ b0 b1, c = .writeReg ptr [b0, b1]) (h : pointerRefusal s.build.profile ptr = some r) :
    beginCall c s = .refused r := by
  rcases hc with rfl | ⟨b0, b1, rfl⟩ <;> simp [beginCall, h]

theorem beginCall_of_pointer {s : State} {c : Call} {ptr : Byte}
    (hc : c = .readReg ptr 2 ∨ ∃ b0 b1, c = .writeReg ptr [b0, b1]) (h : pointerRefusal s.build.profile ptr = none) :
    ∃ t, beginCall c s = .next t := by
  rcases hc with rfl | ⟨b0, b1, rfl⟩
  · exact ⟨_, beginCall_readReg h⟩
  · exact ⟨_, beginCall_writeReg b0 b1 h⟩

/-- R47, R48: a write has two bytes. -/
theorem beginCall_writeReg_of_length {s : State} {ptr : Byte} {bytes : List Byte} (h1 : bytes.length ≠ 1)
    (h2 : bytes.length ≠ 2) : beginCall (.writeReg ptr bytes) s = .refused .accessLength := by
  rcases bytes with _ | ⟨b0, _ | ⟨b1, _ | ⟨b2, more⟩⟩⟩
  · rfl
  · exact absurd rfl h1
  · exact absurd rfl h2
  · rfl

/-- A transport operation fails or gives the register's word. -/
theorem readAnswer_eq_none_iff {s : State} {reg : ChipReg} : s.readAnswer reg = none ↔ s.draw.ok = false := by
  unfold State.readAnswer
  cases s.draw.ok <;> simp

/-- A sequence ends with nothing at the port. -/
theorem State.finish_ended {s : State} {rest : List Call} (hport : s.port = []) (hcalls : s.session.calls = rest)
    (r : CallResult) : Ended (s.finish r) rest r := ⟨hport, by simp [hcalls]⟩

/-! ## The general call, and what it leaves of the chip (R46, R49, R223) -/

@[simp] theorem State.callThenFinish_cfg (s : State) : s.callThenFinish.cfg = s.cfg := s.callThenFinish_keeps.2

theorem State.callThenFinish_ended {s : State} {rest : List Call} (hport : s.port = [])
    (hcalls : s.session.calls = rest) :
    Ended s.callThenFinish rest (if s.draw.ok then .done else .failed .transportError) ∧
      s.callThenFinish.trace = .generalCall 0x00 0x06 s.draw.ok :: s.trace :=
  ⟨State.finish_ended (by simpa using hport) (by simpa using hcalls) _, s.afterGeneralCall_trace⟩

/-- R174: RESET, and then the general call it asks for. -/
theorem reaches_generalReset {s : State} {rest : List Call} (h : Calling s .generalReset rest) :
    Reaches 3 s ((s.takeCall rest).answered .reset .awaitReset).callThenFinish :=
  reaches_succ (step_of_calling h) (reaches_ask (s.takeCall rest) .reset rfl)

theorem getLsbD_owned_15 (p : Profile) : (owned p).getLsbD 15 = true := by cases p <;> rfl

theorem getLsbD_defaultedBits (p : Profile) (inFlight : Bool) {k : Nat} (hk : k < 16) :
    (defaultedBits p inFlight).getLsbD k = ((owned p).getLsbD k && !(inFlight && decide (k = 15))) := by
  have hlow : (0x7FFF : Word).getLsbD k = !decide (k = 15) := by
    revert k
    decide
  cases inFlight with
  | false => simp [defaultedBits]
  | true => rw [defaultedBits, if_pos rfl, BitVec.getLsbD_and, hlow, Bool.true_and]

theorem getLsbD_atDefaultsWord (p : Profile) (inFlight : Bool) (w : Word) (k : Nat) :
    (atDefaultsWord p inFlight w).getLsbD k =
      if (defaultedBits p inFlight).getLsbD k then idleWord.getLsbD k else w.getLsbD k := by
  by_cases hk : k < 16
  · rw [atDefaultsWord, BitVec.getLsbD_or, BitVec.getLsbD_and, BitVec.getLsbD_and, BitVec.getLsbD_not]
    cases (defaultedBits p inFlight).getLsbD k <;> simp [hk]
  · simp [BitVec.getLsbD_of_ge _ k (Nat.le_of_not_lt hk)]

/-- R223: the chip still converts after the call only if it did at the call, and its word says so. -/
theorem getLsbD_atDefaultsWord_15 (p : Profile) (inFlight : Bool) (w : Word) :
    (!(atDefaultsWord p inFlight w).getLsbD 15) = (inFlight && !w.getLsbD 15) := by
  have hidle : idleWord.getLsbD 15 = true := rfl
  rw [getLsbD_atDefaultsWord, getLsbD_defaultedBits p inFlight (by decide), getLsbD_owned_15, hidle]
  cases inFlight <;> simp

/-- R49: every field of the profile but OS is at its default. -/
theorem code_atDefaultsWord {p : Profile} {f : Field} (inFlight : Bool) (w : Word) (hf : has p f = true)
    (hos : f ≠ .os) : code f (atDefaultsWord p inFlight w) = code f idleWord := by
  refine BitVec.eq_of_getLsbD_eq fun j _ => ?_
  rw [getLsbD_code, getLsbD_code]
  by_cases hj : j < width f
  · have hlt := pos_add_width_le f
    have hbelow : pos f + width f ≤ 15 := by
      cases f
      case os => exact absurd rfl hos
      all_goals decide
    have hdefaulted : (defaultedBits p inFlight).getLsbD (pos f + j) = true := by
      rw [getLsbD_defaultedBits p inFlight (by omega),
        (getLsbD_owned_iff p (pos f + j)).mpr ⟨f, hf, by omega, by omega⟩, decide_eq_false (by omega), Bool.and_false]
      rfl
    rw [getLsbD_atDefaultsWord, if_pos hdefaulted]
  · simp [hj]

/-- R213: the idle pattern decodes to the defaults. -/
theorem decCode_idleWord (t : DrTable) (f : Field) : decCode t f (code f idleWord) = defaults.get f := by
  cases t <;> cases f <;> rfl

theorem decCode_os (t : DrTable) (w : Word) : decCode t .os (code .os w) = if !w.getLsbD 15 then 1 else 0 := by
  have htwo (c : BitVec 3) : decCode t .os c = if decide (decCode t .os c = 1) then 1 else 0 := by
    revert c
    cases t <;> decide
  rw [htwo, decCode_os_eq_one]

/-- What DECODE finds in a configuration word read right after a general call. -/
theorem decCode_atDefaultsWord {p : Profile} (t : DrTable) {f : Field} (inFlight : Bool) (w : Word)
    (hf : has p f = true) :
    decCode t f (code f (atDefaultsWord p inFlight w)) =
      if f = .os ∧ (inFlight && !w.getLsbD 15) = true then 1 else defaults.get f := by
  by_cases hos : f = .os
  · subst hos
    rw [decCode_os, getLsbD_atDefaultsWord_15]
    simp only [true_and]
    rfl
  · rw [code_atDefaultsWord inFlight w hf hos, decCode_idleWord, if_neg fun h => hos h.1]

theorem State.draw_of_draws {s : State} {d : Draw} {ds : List Draw} (h : s.draws = d :: ds) : s.draw = d := by
  rw [State.draw, h]

/-- The configuration register at the first bus operation after a delivered call: that operation draws `e`, the call
drew `d`, and either ends the conversion that was in flight if its word has bit 15 set. -/
theorem State.readAnswer_callThenFinish {s : State} {d e : Draw} {ds : List Draw} (hdraws : s.draws = d :: e :: ds)
    (hd : d.ok = true) (he : e.ok = true) :
    s.callThenFinish.readAnswer .configuration =
      some (atDefaultsWord s.build.profile (s.chip.converting && !d.regs.configuration.getLsbD 15)
        e.regs.configuration) := by
  have hdraw : s.callThenFinish.draw = e :=
    State.draw_of_draws (ds := ds) (by simp [State.callThenFinish, hdraws])
  have hchip : s.callThenFinish.chip =
      { regs := s.chip.contentsAtDefaults s.build.profile d.regs, atDefaults := true } := by
    rw [State.callThenFinish, State.finish_chip, State.afterGeneralCall_chip, State.draw_of_draws hdraws, hd,
      if_pos rfl]
  rw [State.readAnswer, hdraw, he, if_pos rfl, hchip, Chip.contents_after_call rfl, s.callThenFinish_keeps.1,
    ← getLsbD_atDefaultsWord_15 s.build.profile]
  rfl

/-! ## A start write (R49, R172) -/

/-- R49: it begins a conversion on an idle chip (log entry 11). -/
theorem State.afterWrite_converting {s : State} {w : Word} (hok : s.draw.ok = true) (hw : w.getLsbD 15 = true)
    (hidle : s.chip.converting = false) : (s.afterWrite .configuration w).chip.converting = true := by
  have hchip : (s.afterWrite .configuration w).chip.regs =
      { s.draw.regs with configuration := s.draw.regs.configuration &&& 0x7FFF } := by
    change (if s.draw.ok = true then s.chip.contentsAfterWrite .configuration w s.draw.regs else _) = _
    rw [if_pos hok, Chip.contentsAfterWrite, if_pos ⟨rfl, hw, by rw [hidle]; rfl⟩]
  simp [Chip.converting, hchip]

/-- R107: START's word has bit 15 set. -/
theorem getLsbD_startWord_15 (b : Build) (cfg : Slots Sym) : (responseTo b cfg .start).wordOut.getLsbD 15 = true := by
  have hcode : encCode b.drTable .os 2 = 1 := encCode_of_legal rfl
  change (encWord b (startSymbols cfg)).getLsbD 15 = true
  rw [getLsbD_encWord_15, get_startSymbols, if_pos rfl, hcode]
  rfl

/-! ## A single command (R181) -/

/-- The port takes the word that is issued, and the host waits for what the instruction answers. -/
theorem reaches_askWord (s : State) {w : Command} {i : Instr} {p : Phase} (hdec : decode w = .instr i)
    (hp : p.awaits = true) :
    Reaches 2 (s.askWord w p) (onResponse p (responseTo s.build s.cfg i) (s.answered i p)) := by
  have hstep : step (s.askWord w p) = .next (s.answered i p) := by
    rw [step_of_instr (State.askWord_port s w p) hdec, exec_eq]
    rfl
  exact reaches_succ hstep (reaches_one (step_answered s i hp))

theorem beginCall_command {s : State} {w : Command} (h : opField w ≠ 5) :
    beginCall (.command w) s = .next (s.askWord w .awaitCommand) := if_neg h

/-! ## Runs cut into parts -/

/-- The inversion lemma of a run that is not over. -/
theorem exists_step_of_reaches_succ {k : Nat} {s t : State} (h : Reaches (k + 1) s t) :
    ∃ u, step s = .next u ∧ Reaches k u t := by
  unfold Reaches at h
  simp only [Host.Core.run] at h
  split at h
  case h_1 u hu => exact ⟨u, hu, h⟩
  all_goals cases h

theorem reaches_add {j k : Nat} {s t u : State} (h : Reaches j s t) (hrun : Reaches k t u) : Reaches (j + k) s u := by
  induction j generalizing s with
  | zero =>
    cases h
    rwa [Nat.zero_add]
  | succ j ih =>
    obtain ⟨v, hstep, hrest⟩ := exists_step_of_reaches_succ h
    rw [Nat.add_right_comm]
    exact reaches_succ hstep (ih hrest)

/-- What every step keeps, every run keeps. -/
theorem invariant_of_reaches {P : State → Prop} (hkeep : ∀ s t, step s = .next t → P s → P t) {k : Nat} {s t : State}
    (h : Reaches k s t) (hs : P s) : P t := by
  induction k generalizing s with
  | zero =>
    cases h
    exact hs
  | succ k ih =>
    obtain ⟨u, hstep, hrest⟩ := exists_step_of_reaches_succ h
    exact ih hrest (hkeep s u hstep hs)

end Sys2Proof.Machine

namespace Sys2Proof.Proofs

open Sys2Proof.Machine Sys2Proof.Claims

/-- Settles O57: this is `State.afterWrite_converting`. -/
theorem startWriteBeginsConversion : Obligations.StartWriteBeginsConversion :=
  fun _ _ => State.afterWrite_converting

/-- Settles O58: the length is looked at, and then the pointer. -/
theorem hostAccessesRefused : Obligations.HostAccessesRefused := by
  refine ⟨fun s ptr b rest hcall => step_of_calling hcall, fun s ptr bytes rest hcall h1 h2 => ?_,
    fun s ptr n rest hcall hn => ?_, fun s c rest ptr hcall hc => ⟨fun hhigh => ?_, fun hptr hb => ?_, fun hptr => ?_⟩⟩
  · exact (step_of_calling hcall).trans (beginCall_writeReg_of_length h1 h2)
  · exact (step_of_calling hcall).trans (if_pos hn)
  · exact (step_of_calling hcall).trans (beginCall_of_pointerRefusal hc (pointerRefusal_of_high hhigh _))
  · have hrefused : pointerRefusal s.build.profile ptr = some .thresholdOnBase := by
      rw [hb]
      exact pointerRefusal_of_threshold hptr
    exact (step_of_calling hcall).trans (beginCall_of_pointerRefusal hc hrefused)
  · rw [step_of_calling hcall]
    exact beginCall_of_pointer hc (pointerRefusal_eq_none_iff.mpr hptr)

/-- Settles O55: each primitive is one step that ends with the transport's outcome. -/
theorem transportPrimitives : Obligations.TransportPrimitives := by
  refine ⟨fun s ptr b0 b1 rest hcall hptr => ?_, fun s ptr rest hcall hptr => ?_, fun s rest hcall => ?_⟩
  · have hstep := (step_of_calling hcall).trans (beginCall_writeReg (s := s.takeCall rest) b0 b1 hptr)
    refine ⟨_, hstep, by simp, State.finish_ended (by simpa using hcall.1) (by simp) _, ?_⟩
    simp [pointerByte_ofPointer hptr, high_ofBytes, low_ofBytes]
  · have hstep := (step_of_calling hcall).trans (beginCall_readReg (s := s.takeCall rest) hptr)
    refine ⟨_, hstep, (beginCall_keeps (beginCall_readReg (s := s.takeCall rest) hptr)).2, ?_⟩
    cases hread : s.readAnswer (ChipReg.ofPointer (ptr.setWidth 2)) with
    | some w =>
      refine .inl ⟨w.high, w.low, by rw [word_eq_bytes], ?_⟩
      rw [readThen_of_some (s := s.takeCall rest) hread, word_eq_bytes]
      refine ⟨State.finish_ended (by simpa using hcall.1) (by simp) _, by simp [hread, pointerByte_ofPointer hptr], ?_⟩
      exact Bool.eq_true_of_not_eq_false fun hlost => nomatch (readAnswer_eq_none_iff.mpr hlost).symm.trans hread
    | none =>
      rw [readThen_of_none (s := s.takeCall rest) hread]
      exact .inr ⟨rfl, State.finish_ended (by simpa using hcall.1) (by simp) _,
        by simp [hread, pointerByte_ofPointer hptr], readAnswer_eq_none_iff.mp hread⟩
  · obtain ⟨hended, htrace⟩ := (s.takeCall rest).callThenFinish_ended hcall.1 rfl
    exact ⟨_, step_of_calling hcall, by simp, hended, htrace⟩

/-- Settles O45: the write sequence of START, whose write of bit 15 starts an idle chip. -/
theorem oneShotRequestSequence : Obligations.OneShotRequestSequence := by
  intro s rest hcall
  have hreach := reaches_succ (step_of_calling hcall) (reaches_ask (s.takeCall rest) .start rfl)
  rw [onResponse_awaitWrite_of_ok rfl] at hreach
  have hword := getLsbD_startWord_15 s.build s.cfg
  refine ⟨_, _, _, exec_eq .start s, rfl, hword, hreach, by simp [cfgAfter],
    State.finish_ended (by simp) (by simp) _, State.afterWrite_trace _ _ _, fun hok hidle => ?_⟩
  exact State.afterWrite_converting (s := (s.takeCall rest).answered .start (.awaitWrite .configuration)) hok hword
    hidle

/-- Settles O47: RESET asks for the general call, which ends the sequence. -/
theorem generalResetSequence : Obligations.GeneralResetSequence := by
  intro s rest hcall
  obtain ⟨hended, htrace⟩ := ((s.takeCall rest).answered .reset .awaitReset).callThenFinish_ended rfl rfl
  exact ⟨_, reaches_generalReset hcall, State.callThenFinish_cfg _, hended, htrace⟩

/-- Settles O60: BUSY is refused, a word that does not decode reaches the port, and any other command is answered:
RESET's response asks for the general call, no other does. -/
theorem singleCommand : Obligations.SingleCommand := by
  intro s w rest hcall
  refine ⟨fun hbusy => (step_of_calling hcall).trans (if_pos hbusy), fun hop => ?_⟩
  have hstep := (step_of_calling hcall).trans (beginCall_command hop)
  refine ⟨fun why hdec => ⟨_, hstep, step_of_refused rfl hdec⟩, fun i hdec => ?_⟩
  have hreach := reaches_succ hstep (reaches_askWord (s.takeCall rest) hdec rfl)
  refine ⟨_, _, _, exec_eq i s, rfl, hreach, (onResponse_keeps _ _ _).2, fun hne => ?_, fun hreset => ?_⟩
  · have hfinish := gcReq_responseTo_of_ne_reset (b := s.build) (cfg := s.cfg) hne
    simp only [onResponse, State.takeCall_build, State.takeCall_cfg, hfinish, Bool.false_eq_true, if_false]
    exact ⟨⟨rfl, rfl⟩, rfl⟩
  · subst hreset
    exact ((s.takeCall rest).answered .reset .awaitCommand).callThenFinish_ended rfl rfl

/-- Settles O56: the configuration register then decodes to the defaults, OS apart, which is what the chip says where a
conversion was in flight at the call and at the read. -/
theorem generalCallLeavesDefaults : Obligations.GeneralCallLeavesDefaults := by
  intro s rest d e ds hdraws hd he
  have hread (next : Call) := State.readAnswer_callThenFinish
    (s := (s.takeCall (next :: rest)).answered .reset .awaitReset) hdraws hd he
  have hcalling (next : Call) :
      Calling ((s.takeCall (next :: rest)).answered .reset .awaitReset).callThenFinish next rest := by
    refine ⟨?_, ?_, ?_⟩ <;> simp [State.callThenFinish]
  refine ⟨fun hcall => ?_, fun hcall => ?_⟩
  · obtain ⟨t, u, r, hexec, hr, hreach, -, hended, -⟩ := (configurationReadSequence _ _ (hcalling _)).1 _ (hread _)
    obtain ⟨valid, out, hout, hfields⟩ := decodeOutcome _ _
    cases hout.symm.trans hexec
    cases hr
    refine ⟨t, valid, out, reaches_add (reaches_generalReset hcall) hreach, hended, fun f => ?_⟩
    obtain ⟨hvalid, hsym⟩ := hfields f
    rw [hvalid, hsym, (State.callThenFinish_keeps _).1]
    refine ⟨rfl, ?_⟩
    change (if has s.build.profile f = true then _ else _) = _
    by_cases hf : has s.build.profile f = true
    · rw [if_pos hf, if_pos hf, ← code_eq_ofNat_fieldBits]
      exact decCode_atDefaultsWord _ _ _ hf
    · have hos : f ≠ .os := fun h => hf (h ▸ has_os _)
      rw [if_neg hf, if_neg hf, if_neg fun h => hos h.1]
  · obtain ⟨t, hreach, -, hended, -⟩ := (busySequence _ _ (hcalling _)).1 _ (hread _)
    rw [getLsbD_atDefaultsWord_15] at hended
    exact ⟨t, reaches_add (reaches_generalReset hcall) hreach, hended⟩

end Sys2Proof.Proofs

/-! # one_shot_conversion(): its start, a round of its poll loop, its reading, and what the bus sees of the whole -/

namespace Sys2Proof.Machine

open Sys2Proof.Claims

/-! ## The start write (R178) -/

section
variable {s : State} {reg : ChipReg} {w : Word}

theorem writeThen_of_delivered (h : s.draw.ok = true) (k : State → State) :
    s.writeThen reg w k = k (s.afterWrite reg w) := if_pos h

theorem writeThen_of_lost (h : s.draw.ok = false) (k : State → State) :
    s.writeThen reg w k = (s.afterWrite reg w).finish (.failed .transportError) := by
  rw [State.writeThen, h]
  rfl

/-- A read that a draw decides, no general call having come right before it. -/
theorem readAnswer_of_draw {d : Draw} {ds : List Draw} (hdraws : s.draws = d :: ds) (hok : d.ok = true)
    (hchip : s.chip.atDefaults = false) : s.readAnswer reg = some (d.regs.get reg) := by
  rw [State.readAnswer, State.draw_of_draws hdraws, if_pos hok, Chip.contents_of_draw hchip]

end

/-- The call issued START, and the word answered has been written. -/
def State.startWritten (s : State) (rest : List Call) (deadline : Option Nat) : State :=
  ((s.takeCall rest).answered .start (.awaitShotStart deadline)).afterWrite .configuration
    (responseTo s.build s.cfg .start).wordOut

section
variable {s : State} {rest : List Call} {deadline : Option Nat}

@[simp] theorem State.startWritten_build : (s.startWritten rest deadline).build = s.build :=
  State.afterWrite_build _ _ _
@[simp] theorem State.startWritten_cfg : (s.startWritten rest deadline).cfg = s.cfg := State.afterWrite_cfg _ _ _
@[simp] theorem State.startWritten_port : (s.startWritten rest deadline).port = [] := State.afterWrite_port _ _ _
@[simp] theorem State.startWritten_session :
    (s.startWritten rest deadline).session = { s.session with calls := rest, phase := .awaitShotStart deadline } :=
  State.afterWrite_session _ _ _
@[simp] theorem State.startWritten_draws : (s.startWritten rest deadline).draws = s.draws.tail :=
  State.afterWrite_draws _ _ _
@[simp] theorem State.startWritten_trace :
    (s.startWritten rest deadline).trace =
      .wrote 0x01 ((responseTo s.build s.cfg .start).wordOut.extractLsb' 8 8)
        ((responseTo s.build s.cfg .start).wordOut.extractLsb' 0 8) s.draw.ok :: s.trace :=
  State.afterWrite_trace _ _ _

theorem reaches_oneShot (h : Calling s (.oneShot deadline) rest) :
    Reaches 3 s (((s.takeCall rest).answered .start (.awaitShotStart deadline)).writeThen .configuration
      (responseTo s.build s.cfg .start).wordOut fun t => t.goto (.poll 0 deadline)) :=
  reaches_succ (step_of_calling h) (reaches_ask (s.takeCall rest) .start rfl)

/-- Delivered, the first poll is due. -/
theorem reaches_poll_of_oneShot (h : Calling s (.oneShot deadline) rest) (hok : s.draw.ok = true) :
    Reaches 3 s ((s.startWritten rest deadline).goto (.poll 0 deadline)) := by
  have hreach := reaches_oneShot h
  rwa [writeThen_of_delivered (s := (s.takeCall rest).answered .start (.awaitShotStart deadline)) hok] at hreach

/-- R179: lost, it ends the call. -/
theorem reaches_failed_of_oneShot (h : Calling s (.oneShot deadline) rest) (hlost : s.draw.ok = false) :
    Reaches 3 s ((s.startWritten rest deadline).finish (.failed .transportError)) := by
  have hreach := reaches_oneShot h
  rwa [writeThen_of_lost (s := (s.takeCall rest).answered .start (.awaitShotStart deadline)) hlost] at hreach

end

/-! ## A round of the poll loop (R178-R180) -/

section
variable {s : State} {polls : Nat} {deadline : Option Nat}

theorem step_of_poll (hport : s.port = []) (hphase : s.session.phase = .poll polls deadline) :
    step s = .next ((s.takeCall s.session.calls).readThen .configuration
      fun w u => u.ask (.busy w) (.awaitPoll (polls + 1) deadline)) := by
  rw [step_of_port_nil hport, sessionStep, hphase]
  rfl

/-- The poll read `w`, and the response to BUSY of it is there. -/
def State.polled (s : State) (w : Word) (polls : Nat) (deadline : Option Nat) : State :=
  (s.afterRead .configuration).answered (.busy w) (.awaitPoll (polls + 1) deadline)

@[simp] theorem State.polled_build (w : Word) : (s.polled w polls deadline).build = s.build :=
  s.afterRead_build .configuration
@[simp] theorem State.polled_cfg (w : Word) : (s.polled w polls deadline).cfg = s.cfg := s.afterRead_cfg .configuration
@[simp] theorem State.polled_port (w : Word) : (s.polled w polls deadline).port = [] := rfl
@[simp] theorem State.polled_session (w : Word) :
    (s.polled w polls deadline).session = { s.session with phase := .awaitPoll (polls + 1) deadline } := by
  simp [State.polled]
@[simp] theorem State.polled_draws (w : Word) : (s.polled w polls deadline).draws = s.draws.tail :=
  s.afterRead_draws .configuration

theorem State.polled_trace {w : Word} (h : s.readAnswer .configuration = some w) :
    (s.polled w polls deadline).trace = readEvent 0x01 w :: s.trace := by
  rw [State.polled, State.answered_trace, State.afterRead_trace, h]
  rfl

/-- What the loop comes to after a poll that read `w`. -/
def State.afterPoll (s : State) (w : Word) (polls : Nat) (deadline : Option Nat) : State :=
  if w.getLsbD 15 then (s.polled w polls deadline).goto .shotRead
  else stillBusy (polls + 1) deadline (s.polled w polls deadline)

theorem reaches_afterPoll {w : Word} (hport : s.port = []) (hphase : s.session.phase = .poll polls deadline)
    (hw : s.readAnswer .configuration = some w) : Reaches 3 s (s.afterPoll w polls deadline) := by
  have hreach := reaches_readThen_ask rfl (step_of_poll hport hphase) hw
  have hbusy : (responseTo s.build s.cfg (.busy w)).busy = !w.getLsbD 15 := decCode_os_eq_one _ w
  rw [onResponse, hbusy] at hreach
  unfold State.afterPoll
  cases hbit : w.getLsbD 15 <;> rw [hbit] at hreach <;> exact hreach

variable {w : Word}

theorem afterPoll_of_idle (h : w.getLsbD 15 = true) :
    s.afterPoll w polls deadline = (s.polled w polls deadline).goto .shotRead := if_pos h

theorem afterPoll_of_bound (h : w.getLsbD 15 = false) (hbound : s.build.maxPolls = some (polls + 1)) :
    s.afterPoll w polls deadline = (s.polled w polls deadline).finish .timeout := by
  rw [State.afterPoll, h, stillBusy, State.polled_build, if_pos hbound]
  rfl

theorem afterPoll_of_deadline (h : w.getLsbD 15 = false) (hbound : s.build.maxPolls ≠ some (polls + 1))
    (hdeadline : deadline = some (polls + 1)) :
    s.afterPoll w polls deadline = (s.polled w polls deadline).finish .abandoned := by
  rw [State.afterPoll, h, stillBusy, State.polled_build, if_neg hbound, if_pos hdeadline]
  rfl

theorem afterPoll_of_busy (h : w.getLsbD 15 = false) (hbound : s.build.maxPolls ≠ some (polls + 1))
    (hdeadline : deadline ≠ some (polls + 1)) :
    s.afterPoll w polls deadline =
      ((s.polled w polls deadline).log (.slept (sampleRate s.build.drSps s.cfg.dr))).goto
        (.poll (polls + 1) deadline) := by
  rw [State.afterPoll, h, stillBusy, State.polled_build, State.polled_cfg, if_neg hbound, if_neg hdeadline]
  rfl

theorem stillBusy_port (n : Nat) (deadline : Option Nat) (s : State) : (stillBusy n deadline s).port = s.port := by
  unfold stillBusy
  split
  · rfl
  · split <;> rfl

@[simp] theorem State.afterPoll_port : (s.afterPoll w polls deadline).port = [] := by
  unfold State.afterPoll
  split
  · rfl
  · exact stillBusy_port _ _ _

@[simp] theorem State.afterPoll_cfg : (s.afterPoll w polls deadline).cfg = s.cfg := by
  unfold State.afterPoll
  split
  · rw [State.goto_cfg, State.polled_cfg]
  · rw [(stillBusy_keeps _ _ _).2, State.polled_cfg]

end

/-! ## The reading (R178) -/

theorem step_of_shotRead {s : State} (hport : s.port = []) (hphase : s.session.phase = .shotRead) :
    step s = .next ((s.takeCall s.session.calls).readThen .conversion
      fun w u => u.ask (.conv none w) .awaitReading) := by
  rw [step_of_port_nil hport, sessionStep, hphase]
  rfl

/-- The conversion register gave `w`, and the call has returned what CONV answers of it. -/
def State.shotEnded (s : State) (w : Word) : State :=
  ((s.afterRead .conversion).answered (.conv none w) .awaitReading).finish
    (.reading (responseTo s.build s.cfg (.conv none w)).raw12 (responseTo s.build s.cfg (.conv none w)).scaledQ3)

theorem reaches_shotEnded {s : State} {w : Word} (hport : s.port = []) (hphase : s.session.phase = .shotRead)
    (hw : s.readAnswer .conversion = some w) : Reaches 3 s (s.shotEnded w) :=
  reaches_readThen_ask rfl (step_of_shotRead hport hphase) hw

/-! ## A call that the environment delivers (R220) -/

/-- The call made from `s`, with the calls `rest` after it, has come to the phase `p`: the parameters and `CFG` are
those of `s`, the next draws are `ds`, and a general call was not the last bus operation. -/
structure ShotDue (s : State) (rest : List Call) (p : Phase) (ds : List Draw) (t : State) : Prop where
  build : t.build = s.build
  cfg : t.cfg = s.cfg
  port : t.port = []
  calls : t.session.calls = rest
  phase : t.session.phase = p
  draws : t.draws = ds
  chip : t.chip.atDefaults = false

section
variable {s t : State} {rest : List Call} {n : Nat} {d : Draw} {ds : List Draw}

theorem exists_shotDue_of_calling (h : Calling s (.oneShot none) rest) (hdraws : s.draws = d :: ds)
    (hok : d.ok = true) : ∃ t, Reaches 3 s t ∧ ShotDue s rest (.poll 0 none) ds t := by
  have hdraw : s.draw.ok = true := by rw [State.draw_of_draws hdraws, hok]
  refine ⟨_, reaches_poll_of_oneShot h hdraw, by simp, by simp, by simp, by simp, rfl, ?_, rfl⟩
  rw [State.goto_draws, State.startWritten_draws, hdraws, List.tail_cons]

/-- One poll, with the word its draw gives. -/
theorem ShotDue.reaches_afterPoll (h : ShotDue s rest (.poll n none) (d :: ds) t) (hok : d.ok = true) :
    Reaches 3 t (t.afterPoll d.regs.configuration n none) :=
  Machine.reaches_afterPoll h.port h.phase (readAnswer_of_draw h.draws hok h.chip)

theorem ShotDue.polled (h : ShotDue s rest (.poll n none) (d :: ds) t) (w : Word) :
    (t.polled w n none).build = s.build ∧ (t.polled w n none).cfg = s.cfg ∧
    (t.polled w n none).session.calls = rest ∧ (t.polled w n none).draws = ds := by
  simp [h.build, h.cfg, h.calls, h.draws]

theorem ShotDue.exists_of_busy (h : ShotDue s rest (.poll n none) (d :: ds) t) (hd : Finds true d)
    (hbound : s.build.maxPolls ≠ some (n + 1)) :
    ∃ u, Reaches 3 t u ∧ ShotDue s rest (.poll (n + 1) none) ds u := by
  have hreach := h.reaches_afterPoll hd.1
  rw [afterPoll_of_busy hd.2 (h.build ▸ hbound) (Option.some_ne_none _).symm] at hreach
  obtain ⟨hbuild, hcfg, hcalls, hdraws⟩ := h.polled d.regs.configuration
  exact ⟨_, hreach, hbuild, hcfg, rfl, hcalls, rfl, hdraws, rfl⟩

theorem ShotDue.exists_of_idle (h : ShotDue s rest (.poll n none) (d :: ds) t) (hd : Finds false d) :
    ∃ u, Reaches 3 t u ∧ ShotDue s rest .shotRead ds u := by
  have hreach := h.reaches_afterPoll hd.1
  rw [afterPoll_of_idle hd.2] at hreach
  obtain ⟨hbuild, hcfg, hcalls, hdraws⟩ := h.polled d.regs.configuration
  exact ⟨_, hreach, hbuild, hcfg, rfl, hcalls, rfl, hdraws, rfl⟩

theorem ShotDue.exists_timeout (h : ShotDue s rest (.poll n none) (d :: ds) t) (hd : Finds true d)
    (hbound : s.build.maxPolls = some (n + 1)) :
    ∃ u, Reaches 3 t u ∧ u.cfg = s.cfg ∧ u.draws = ds ∧ Ended u rest .timeout := by
  have hreach := h.reaches_afterPoll hd.1
  rw [afterPoll_of_bound hd.2 (h.build ▸ hbound)] at hreach
  obtain ⟨-, hcfg, hcalls, hdraws⟩ := h.polled d.regs.configuration
  exact ⟨_, hreach, hcfg, hdraws, State.finish_ended rfl hcalls _⟩

/-- Polls that find the chip converting, and do not come to the bound. -/
theorem ShotDue.exists_of_all_busy {busy : List Draw} (h : ShotDue s rest (.poll n none) (busy ++ ds) t)
    (hbusy : ∀ d ∈ busy, Finds true d) (hbound : ∀ m, s.build.maxPolls = some m → n + busy.length < m) :
    ∃ u, Reaches (3 * busy.length) t u ∧ ShotDue s rest (.poll (n + busy.length) none) ds u := by
  induction busy generalizing n t with
  | nil => exact ⟨t, reaches_zero t, h⟩
  | cons d busy ih =>
    rw [List.length_cons] at hbound ⊢
    obtain ⟨u, hpoll, hu⟩ := h.exists_of_busy (hbusy d List.mem_cons_self) fun hmax => by
      have := hbound _ hmax
      omega
    obtain ⟨v, hrest, hv⟩ := ih hu (fun e he => hbusy e (List.mem_cons_of_mem d he)) fun m hmax => by
      have := hbound m hmax
      omega
    refine ⟨v, ?_, ?_⟩
    · rw [Nat.mul_succ, Nat.add_comm]
      exact reaches_add hpoll hrest
    · rwa [Nat.add_right_comm, Nat.add_assoc] at hv

theorem ShotDue.exists_reading (h : ShotDue s rest .shotRead (d :: ds) t) (hok : d.ok = true) :
    ∃ u, Reaches 3 t u ∧ u.cfg = s.cfg ∧ u.draws = ds ∧
      Ended u rest (.reading (responseTo s.build s.cfg (.conv none d.regs.conversion)).raw12
        (responseTo s.build s.cfg (.conv none d.regs.conversion)).scaledQ3) := by
  have hreach := reaches_shotEnded h.port h.phase (readAnswer_of_draw h.draws hok h.chip)
  have hcfg : (t.afterRead .conversion).cfg = s.cfg := (t.afterRead_cfg _).trans h.cfg
  have hdraws : (t.afterRead .conversion).draws = ds := by rw [State.afterRead_draws, h.draws, List.tail_cons]
  rw [State.shotEnded, h.build, h.cfg] at hreach
  exact ⟨_, hreach, hcfg, hdraws, State.finish_ended rfl (by simp [h.calls]) _⟩

end

/-! ## What the bus sees of a call that returns a reading (R178, S14) -/

/-- The events since `base` are a delivered start write and then one or more polls with sleeps between. -/
def PolledSince (base trace : List Event) : Prop :=
  ∃ polls hi lo, trace = polls ++ .wrote 0x01 hi lo true :: base ∧ pollEvents polls = true ∧ hi.getLsbD 7 = true

/-- The next poll is due: the start write has just been delivered, or the host has slept since the last poll. -/
def PollDueSince (base trace : List Event) : Prop :=
  (∃ hi lo, trace = .wrote 0x01 hi lo true :: base ∧ hi.getLsbD 7 = true) ∨
    ∃ rate polled, trace = .slept rate :: polled ∧ PolledSince base polled

/-- After the polls the conversion register was read. -/
def ReadSince (base trace : List Event) : Prop :=
  ∃ v polled, trace = readEvent 0x00 v :: polled ∧ PolledSince base polled

theorem polledSince_of_poll {base trace : List Event} (w : Word) (h : PollDueSince base trace) :
    PolledSince base (readEvent 0x01 w :: trace) := by
  rcases h with ⟨hi, lo, rfl, hbit⟩ | ⟨rate, polled, rfl, polls, hi, lo, rfl, hpolls, hbit⟩
  · exact ⟨[readEvent 0x01 w], hi, lo, rfl, rfl, hbit⟩
  · exact ⟨readEvent 0x01 w :: .slept rate :: polls, hi, lo, rfl, by simp [pollEvents, readEvent, hpolls], hbit⟩

/-- What holds of a one_shot_conversion() in each phase, `base` being the events before it. START's word has bit 15 set
once it is answered; a call that is over has its events if it returned a reading. -/
def ShotAt (base : List Event) (s : State) : Phase → Prop
  | .awaitShotStart _ =>
    s.trace = base ∧ (s.port = [encode .start] ∨
      s.port = [] ∧ ∀ r, s.response = some r → r.wordOut.getLsbD 15 = true)
  | .poll _ _ => PollDueSince base s.trace
  | .awaitPoll _ _ | .shotRead => PolledSince base s.trace
  | .awaitReading => ReadSince base s.trace
  | .idle => ∀ raw q, s.session.result = some (.reading raw q) → ReadSince base s.trace
  | .awaitWrite _ | .awaitBusy | .awaitReset | .awaitThreshold | .awaitSymbols | .awaitCommand => False

/-- The call runs or is over, or one of the calls `rest` behind it has been taken up. -/
def ShotSince (base : List Event) (rest : List Call) (s : State) : Prop :=
  s.session.calls.length < rest.length ∨ s.session.calls = rest ∧ ShotAt base s s.session.phase

section
variable {base : List Event} {rest : List Call} {s t : State}

theorem shotAt_of_command {w : Command} {port : List Command} {i : Instr} {c : Slots Sym} (hport : s.port = w :: port)
    (hdec : decode w = .instr i) (h : ShotAt base s s.session.phase) :
    ShotAt base { s with port := port, cfg := c, response := some (responseTo s.build s.cfg i) } s.session.phase := by
  cases hphase : s.session.phase with
  | awaitShotStart deadline =>
    rw [hphase] at h
    obtain ⟨htrace, hstart | ⟨hnil, -⟩⟩ := h
    · cases hport.symm.trans hstart
      cases (decode_encode .start).symm.trans hdec
      refine ⟨htrace, .inr ⟨rfl, fun r hr => ?_⟩⟩
      cases hr
      exact getLsbD_startWord_15 s.build s.cfg
    · cases hport.symm.trans hnil
  | _ => rw [hphase] at h; exact h

theorem shotAt_finish {r : CallResult} (hr : ∀ raw q, r ≠ .reading raw q) (u : State) :
    ShotAt base (u.finish r) (u.finish r).session.phase := fun raw q h => absurd (Option.some.inj h) (hr raw q)

theorem shotAt_of_poll {n : Nat} {deadline : Option Nat} (h : PollDueSince base s.trace) :
    let t := s.readThen .configuration fun w u => u.ask (.busy w) (.awaitPoll (n + 1) deadline)
    ShotAt base t t.session.phase := by
  rcases s.readThen_cases .configuration fun w u => u.ask (.busy w) (.awaitPoll (n + 1) deadline) with
    ⟨w, hw, ht⟩ | ⟨-, ht⟩
  · rw [ht]
    change PolledSince base (s.afterRead .configuration).trace
    rw [State.afterRead_trace, hw]
    exact polledSince_of_poll w h
  · rw [ht]
    exact shotAt_finish (by simp) _

theorem shotAt_of_shotRead (h : PolledSince base s.trace) :
    let t := s.readThen .conversion fun w u => u.ask (.conv none w) .awaitReading
    ShotAt base t t.session.phase := by
  rcases s.readThen_cases .conversion fun w u => u.ask (.conv none w) .awaitReading with ⟨w, hw, ht⟩ | ⟨-, ht⟩
  · rw [ht]
    change ReadSince base (s.afterRead .conversion).trace
    rw [State.afterRead_trace, hw]
    exact ⟨w, s.trace, rfl, h⟩
  · rw [ht]
    exact shotAt_finish (by simp) _

theorem shotAt_of_response {r : Response} (hresponse : s.response = some r) (hport : s.port = []) (p : Phase)
    (hawaits : p.awaits = true) (h : ShotAt base s p) :
    ShotAt base (onResponse p r s) (onResponse p r s).session.phase := by
  cases p
  case idle | poll | shotRead => cases hawaits
  case awaitShotStart deadline =>
    obtain ⟨htrace, hstart | ⟨-, hbit⟩⟩ := h
    · cases hport.symm.trans hstart
    · rcases s.writeThen_cases .configuration r.wordOut fun t => t.goto (.poll 0 deadline) with ⟨hok, ht⟩ | ⟨-, ht⟩
      · rw [onResponse, ht]
        change PollDueSince base (s.afterWrite .configuration r.wordOut).trace
        rw [State.afterWrite_trace, hok, htrace]
        exact .inl ⟨_, _, rfl, (getLsbD_high_7 _).trans (hbit r hresponse)⟩
      · rw [onResponse, ht]
        exact shotAt_finish (by simp) _
  case awaitPoll n deadline =>
    rw [onResponse]
    split
    · unfold stillBusy
      split
      · exact shotAt_finish (by simp) _
      · split
        · exact shotAt_finish (by simp) _
        · exact .inr ⟨_, _, rfl, h⟩
    · exact h
  case awaitReading => exact fun _ _ _ => h
  all_goals exact h.elim

/-- A call behind it that is taken up leaves fewer calls; before that the call goes on from phase to phase. -/
theorem shotSince_of_host (hport : s.port = []) (hstep : sessionStep s = .next t) (h : ShotSince base rest s) :
    ShotSince base rest t := by
  obtain ⟨calls, hcalls, hmove⟩ := sessionStep_movesTo hstep
  have hleft : t.session.calls = calls := hmove.calls
  rcases h with hfewer | ⟨hsame, hat⟩
  · refine .inl (Nat.lt_of_le_of_lt ?_ hfewer)
    rcases hcalls with hkept | ⟨-, c, htaken⟩
    · rw [hleft, hkept]
    · rw [hleft, htaken, List.length_cons]
      exact Nat.le_succ _
  · rcases hcalls with hkept | ⟨-, c, htaken⟩
    · refine .inr ⟨hleft.trans (hkept.trans hsame), ?_⟩
      rcases sessionStep_cases hstep with
        ⟨-, -, rfl⟩ | ⟨c, more, -, htaken, hbegin⟩ | ⟨n, d, hphase, rfl⟩ | ⟨hphase, rfl⟩ | ⟨r, hawaits, hr, rfl⟩
      · exact hat
      · have hmore : t.session.calls = more := (beginCall_movesTo hbegin).calls
        rw [hleft, hkept, htaken] at hmore
        exact absurd hmore (List.cons_ne_self _ _)
      · rw [hphase] at hat
        exact shotAt_of_poll hat
      · rw [hphase] at hat
        exact shotAt_of_shotRead hat
      · exact shotAt_of_response hr hport _ hawaits hat
    · refine .inl ?_
      rw [hleft, ← hsame, htaken, List.length_cons]
      exact Nat.lt_succ_self _

theorem shotSince_of_step (s t : State) (hstep : step s = .next t) (h : ShotSince base rest s) :
    ShotSince base rest t := by
  rcases step_next_cases hstep with ⟨hport, hhost⟩ | ⟨w, port, i, hport, hdec, rfl⟩
  · exact shotSince_of_host hport hhost h
  · exact h.imp_right fun ⟨hcalls, hat⟩ => ⟨hcalls, shotAt_of_command hport hdec hat⟩

end

end Sys2Proof.Machine

namespace Sys2Proof.Proofs

open Sys2Proof.Machine Sys2Proof.Claims

/-- Settles O51: a lost read ends the call; the word read decides the rest, by the four clauses of `State.afterPoll`. -/
theorem pollRound : Obligations.PollRound := by
  intro s polls deadline hport hphase
  refine ⟨fun w hw => ⟨_, reaches_afterPoll hport hphase hw, State.afterPoll_port, State.afterPoll_cfg, fun hidle => ?_,
    fun hbusy hbound => ?_, fun hbusy hbound hdeadline => ?_, fun hbusy hbound hdeadline => ?_⟩,
    lost_read_ends hport (step_of_poll hport hphase)⟩
  · rw [afterPoll_of_idle hidle]
    exact ⟨by simp, by rw [State.goto_trace, State.polled_trace hw]⟩
  · rw [afterPoll_of_bound hbusy hbound]
    exact ⟨State.finish_ended rfl (by simp) _, by rw [State.finish_trace, State.polled_trace hw]⟩
  · rw [afterPoll_of_deadline hbusy hbound hdeadline]
    exact ⟨State.finish_ended rfl (by simp) _, by rw [State.finish_trace, State.polled_trace hw]⟩
  · rw [afterPoll_of_busy hbusy hbound hdeadline]
    exact ⟨by simp, by rw [State.goto_trace, State.log_trace, State.polled_trace hw]⟩

/-- Settles O52: `ShotSince` holds once the call is taken up, and every step keeps it. -/
theorem oneShotBusTrace : Obligations.OneShotBusTrace := by
  intro s deadline rest k t raw q hcall hreach hcalls hphase hresult
  cases k with
  | zero =>
    cases hreach
    obtain ⟨-, -, hqueued⟩ := hcall
    exact absurd (hqueued.symm.trans hcalls) (List.cons_ne_self _ _)
  | succ k =>
    obtain ⟨u, hstep, hrest⟩ := exists_step_of_reaches_succ hreach
    cases (step_of_calling hcall).symm.trans hstep
    have hstart : ShotSince s.trace rest ((s.takeCall rest).ask .start (.awaitShotStart deadline)) :=
      .inr ⟨rfl, rfl, .inl rfl⟩
    rcases invariant_of_reaches shotSince_of_step hrest hstart with hfewer | ⟨-, hat⟩
    · rw [hcalls] at hfewer
      exact absurd hfewer (Nat.lt_irrefl _)
    · rw [hphase] at hat
      obtain ⟨v, _, htrace, polls, hi, lo, rfl, hpolls, hbit⟩ := hat raw q hresult
      exact ⟨polls, hi, lo, v, htrace, hpolls, hbit⟩

/-- Settles O53: the start, the busy polls, the poll that finds the chip idle, and the reading. -/
theorem oneShotCompletes : Obligations.OneShotCompletes := by
  intro s rest start busy done conv ds hcall hdraws hstart hbusy hdone hconv hbound
  obtain ⟨t0, hreach0, h0⟩ := exists_shotDue_of_calling hcall hdraws hstart
  obtain ⟨t1, hreach1, h1⟩ := h0.exists_of_all_busy hbusy fun m hmax => by
    rw [Nat.zero_add]
    exact hbound m hmax
  obtain ⟨t2, hreach2, h2⟩ := h1.exists_of_idle hdone
  obtain ⟨t3, hreach3, hcfg, hleft, hended⟩ := h2.exists_reading hconv
  refine ⟨t3, _, _, exec_eq (.conv none conv.regs.conversion) s, rfl, ?_, hcfg, hleft, hended⟩
  have hsteps : 9 + 3 * busy.length = 3 + (3 * busy.length + (3 + 3)) := by omega
  rw [hsteps]
  exact reaches_add hreach0 (reaches_add hreach1 (reaches_add hreach2 hreach3))

/-- Settles O54: the start, all busy polls but one, and the poll that comes to the bound. -/
theorem oneShotTimesOut : Obligations.OneShotTimesOut := by
  intro s rest start busy ds hcall hdraws hstart hbusy hpos hbound
  rcases List.eq_nil_or_concat' busy with rfl | ⟨polls, last, rfl⟩
  · exact absurd hpos (Nat.lt_irrefl 0)
  · rw [List.length_append, List.length_singleton] at hbound ⊢
    rw [List.append_assoc, List.singleton_append] at hdraws
    obtain ⟨t0, hreach0, h0⟩ := exists_shotDue_of_calling hcall hdraws hstart
    obtain ⟨t1, hreach1, h1⟩ := h0.exists_of_all_busy (fun d hd => hbusy d (List.mem_append_left _ hd)) fun m hmax => by
      cases hbound.symm.trans hmax
      omega
    rw [Nat.zero_add] at h1
    obtain ⟨t2, hreach2, hcfg, hleft, hended⟩ :=
      h1.exists_timeout (hbusy last (List.mem_append_right _ List.mem_cons_self)) hbound
    exact ⟨t2, reaches_add hreach0 (reaches_add hreach1 hreach2), hcfg, hleft, hended⟩

/-- Settles O59: the start write, and the conversion read. -/
theorem oneShotTransportErrors : Obligations.OneShotTransportErrors := by
  refine ⟨fun s deadline rest hcall => ?_, fun s hport hphase => ⟨fun w hw => ?_,
    lost_read_ends hport (step_of_shotRead hport hphase)⟩⟩
  · cases hok : s.draw.ok with
    | true =>
      exact ⟨_, _, _, exec_eq .start s, rfl, reaches_poll_of_oneShot hcall hok, by simp, by simp, by simp [hok], nofun,
        fun _ => by simp⟩
    | false =>
      exact ⟨_, _, _, exec_eq .start s, rfl, reaches_failed_of_oneShot hcall hok, by simp, by simp, by simp [hok],
        fun _ => State.finish_ended (by simp) (by simp) _, nofun⟩
  · exact read_ends_with_answer (res := fun r => .reading r.raw12 r.scaledQ3) rfl (fun _ _ => rfl) rfl
      (step_of_shotRead hport hphase) hw

end Sys2Proof.Proofs
